-- ==== Sys2Proof/Word.lean ====
section
/-! DEFINITION. The widths of the block's values (spec/00_scope.md R6, R7). -/

namespace Sys2Proof

/-- A byte: 8 bits (R6, R7). -/
abbrev Byte := BitVec 8

/-- A 16-bit value: a command word, a u16 or i16 field, a checksum, a diagnostic (R6, R7). -/
abbrev Half := BitVec 16

/-- A 32-bit value: the balance bitmap and the data of the read port (R45, R51). -/
abbrev Word := BitVec 32

end Sys2Proof
end

