-- ==== Sys2Proof/Syntax.lean ====
section
/-! DEFINITION. The commands of the block: one constructor per row of spec/opcode_table.json (R101), and the response
types that DECODE takes (R112). -/

namespace Sys2Proof

/-- A response type, the operand of DECODE (R102, R112): BasicInfo, CellVoltages or Unknown. -/
inductive ResponseType where
  | basic
  | cells
  | unknown
  deriving DecidableEq, Repr

/-- A command of the host (R101). DECODE stands once per legal operand, as in the opcode table. -/
inductive Instr where
  /-- NOP, word 0x0000 (R140). -/
  | nop
  /-- CLEAR, word 0x0100 (R141). -/
  | clear
  /-- PUSH b, words 0x0200 to 0x02FF (R142); every byte is a legal operand. -/
  | push (b : Byte)
  /-- VALIDATE, word 0x0300 (R160). -/
  | validate
  /-- DECODE BASIC, word 0x0401 (R190). -/
  | decodeBasic
  /-- DECODE CELLS, word 0x0402 (R190). -/
  | decodeCells
  /-- DECODE UNKNOWN, word 0x0403 (R190). -/
  | decodeUnknown
  /-- PARSE, word 0x0500 (R245). -/
  | parse
  deriving DecidableEq, Repr

end Sys2Proof
end

