-- ==== Sys2Proof/WellFormed.lean ====
section
/-! DEFINITION. Which commands are legal. Every `Instr` is (its one operand is a byte, and every byte is legal, R102);
the checks are on the raw command word split into its OP and ARG fields (R100, R101, R103). -/

namespace Sys2Proof

/-- A command word split into its two fields (R100). -/
structure RawCommand where
  op : Byte
  arg : Byte
  deriving DecidableEq, Repr

/-- The check of R103 on OP: opcodes 0x00 to 0x05 exist, 0x06 to 0xFF are reserved. -/
def RawCommand.opDefined (c : RawCommand) : Bool := decide (c.op.toNat ≤ 0x05)

/-- The check of R103 on ARG for NOP, CLEAR, VALIDATE and PARSE: it must be 0x00. -/
def RawCommand.argZeroWhereRequired (c : RawCommand) : Bool :=
  decide (c.op.toNat ∈ [0x00, 0x01, 0x03, 0x05] → c.arg = 0)

/-- The check of R103 on ARG for DECODE: a response type 0x01, 0x02 or 0x03. -/
def RawCommand.decodeTypeLegal (c : RawCommand) : Bool :=
  decide (c.op.toNat = 0x04 → 1 ≤ c.arg.toNat ∧ c.arg.toNat ≤ 3)

/-- A raw command is well formed when it passes the three checks of R103. -/
def RawCommand.wellFormed (c : RawCommand) : Bool :=
  c.opDefined && c.argZeroWhereRequired && c.decodeTypeLegal

/-- Every command is well formed: PUSH's operand is "data byte, any value" (R101), and no other command has one. -/
def Instr.wellFormed : Instr → Bool
  | .nop => true
  | .clear => true
  | .push _ => true
  | .validate => true
  | .decodeBasic => true
  | .decodeCells => true
  | .decodeUnknown => true
  | .parse => true

end Sys2Proof
end

