-- ==== Sys2Proof/Decode.lean ====
section
/-! DEFINITION. The command decoder (R100 to R105), total on 16-bit words, and the encoder (R101). The command port takes
whole 16-bit words (R87, R100), so the decoder reads a word and there is no byte order to fix (log 9). -/

namespace Sys2Proof

/-- Why the decoder refuses a word (R103). Each is the same IllegalCommand result; the names say which check failed. -/
inductive DecodeReject where
  /-- OP in 0x06 to 0xFF. Raised by `decode`; safe: R103 lists it. -/
  | reservedOpcode (op : Byte)
  /-- NOP, CLEAR, VALIDATE or PARSE with ARG not 0x00. Raised by `decode`; safe: R103 lists it. -/
  | nonzeroArgument (op arg : Byte)
  /-- DECODE with ARG 0x00 or 0x04 to 0xFF. Raised by `decode`; safe: R103 lists it. -/
  | illegalDecodeType (arg : Byte)
  deriving DecidableEq, Repr

/-- The field OP, bits 15:8 (R100). -/
def opField (w : Half) : Byte := w.extractLsb' 8 8

/-- The field ARG, bits 7:0 (R100). -/
def argField (w : Half) : Byte := w.extractLsb' 0 8

/-- The fields of a word (R100, R105: OP and ARG are read from every word in the same way). -/
def rawCommand (w : Half) : RawCommand := ⟨opField w, argField w⟩

/-- A command whose ARG "carries nothing and must be 0x00" (R102). -/
def decodePlain (i : Instr) (op arg : Byte) : Except DecodeReject Instr :=
  if arg = 0 then .ok i else .error (.nonzeroArgument op arg)

/-- The operand of DECODE (R102, R112): 0x01 BASIC, 0x02 CELLS, 0x03 UNKNOWN. -/
def decodeType (arg : Byte) : Except DecodeReject Instr :=
  if arg = 0x01 then .ok .decodeBasic
  else if arg = 0x02 then .ok .decodeCells
  else if arg = 0x03 then .ok .decodeUnknown
  else .error (.illegalDecodeType arg)

/-- The opcode map of R101 on the two fields; every other word is refused by name (R103). -/
def decodeFields (op arg : Byte) : Except DecodeReject Instr :=
  if op = 0x00 then decodePlain .nop op arg
  else if op = 0x01 then decodePlain .clear op arg
  else if op = 0x02 then .ok (.push arg)
  else if op = 0x03 then decodePlain .validate op arg
  else if op = 0x04 then decodeType arg
  else if op = 0x05 then decodePlain .parse op arg
  else .error (.reservedOpcode op)

/-- The command decoder: total on every 16-bit word (R103, R105). -/
def decode (w : Half) : Except DecodeReject Instr := decodeFields (opField w) (argField w)

/-- The OP field of a command (R101). -/
def Instr.opcode : Instr → Byte
  | .nop => 0x00
  | .clear => 0x01
  | .push _ => 0x02
  | .validate => 0x03
  | .decodeBasic => 0x04
  | .decodeCells => 0x04
  | .decodeUnknown => 0x04
  | .parse => 0x05

/-- The ARG field of a command (R101, R102). -/
def Instr.argument : Instr → Byte
  | .nop => 0x00
  | .clear => 0x00
  | .push b => b
  | .validate => 0x00
  | .decodeBasic => 0x01
  | .decodeCells => 0x02
  | .decodeUnknown => 0x03
  | .parse => 0x00

/-- The encoder: OP in bits 15:8, ARG in bits 7:0 (R100, R101). -/
def encode (i : Instr) : Half := i.opcode ++ i.argument

/-- One row of spec/opcode_table.json: a word is of the row when its bits under `mask` are `pattern`. -/
structure OpcodeRow where
  pattern : Half
  mask : Half
  deriving DecidableEq, Repr

/-- A word is of a row (R101: "one row per legal word pattern"). -/
def OpcodeRow.covers (r : OpcodeRow) (w : Half) : Bool := w &&& r.mask == r.pattern

/-- The row of a command, with the table's match and mask. -/
def Instr.row : Instr → OpcodeRow
  | .nop => ⟨0x0000, 0xFFFF⟩
  | .clear => ⟨0x0100, 0xFFFF⟩
  | .push _ => ⟨0x0200, 0xFF00⟩
  | .validate => ⟨0x0300, 0xFFFF⟩
  | .decodeBasic => ⟨0x0401, 0xFFFF⟩
  | .decodeCells => ⟨0x0402, 0xFFFF⟩
  | .decodeUnknown => ⟨0x0403, 0xFFFF⟩
  | .parse => ⟨0x0500, 0xFFFF⟩

/-- The eight rows of spec/opcode_table.json, in its order. -/
def opcodeTable : List OpcodeRow :=
  [⟨0x0000, 0xFFFF⟩, ⟨0x0100, 0xFFFF⟩, ⟨0x0200, 0xFF00⟩, ⟨0x0300, 0xFFFF⟩,
   ⟨0x0401, 0xFFFF⟩, ⟨0x0402, 0xFFFF⟩, ⟨0x0403, 0xFFFF⟩, ⟨0x0500, 0xFFFF⟩]

/-- The command word whose bits are `w`, of which the first `nbits` are given and every bit above them is 0. -/
def tableWord (nbits w : Nat) : Half := BitVec.ofNat 16 (w % 2 ^ min nbits 16)

/-- The command the decoder reads from a table word: none where it refuses. -/
def decodeTableWord (nbits w : Nat) : Option Instr :=
  match decode (tableWord nbits w) with
  | .ok i => some i
  | .error _ => none

end Sys2Proof
end

