-- ==== Sys2Proof/Config.lean ====
section
/-! DEFINITION. The parameters of the hardware (spec/00_scope.md R6): the fixed ones as numbers, the open one as a
constant with no body, and the free value for capture bytes that nothing has written since reset. -/

namespace Sys2Proof

/-- The two values of the parameter HOST_BYTE_ORDER (R6, R85). -/
inductive ByteOrder where
  | little
  | big
  deriving DecidableEq, Repr, Inhabited

/-- HOST_BYTE_ORDER, the parameter R6 marks OPEN: a constant of the hardware that no proof can see.
DESIGN CHOICE, safe: every claim holds for both orders (log 1). -/
opaque Config.hostByteOrder : ByteOrder

/-- The byte that CAP_BUF holds at an index nothing has written since a reset, for the given count of resets (R57, U1:
"unspecified, no defined value per byte"). DESIGN CHOICE, safe: a free value (log 2). -/
opaque Config.unspecifiedByte : (resets : Nat) → (index : Nat) → Byte

/-- CAP_SIZE: the bytes of the capture buffer, 7 + 255 (R6). -/
abbrev Config.capSize : Nat := 262

/-- MIN_FRAME: the bytes of the shortest frame (R6, R161). -/
abbrev Config.minFrame : Nat := 7

/-- BASIC_PAYLOAD_LEN: the payload bytes of a BasicInfo frame (R6, R193). -/
abbrev Config.basicPayloadLen : Nat := 38

/-- CELL_PAYLOAD_MAX: the most payload bytes a CellVoltage record takes (R6, R194). -/
abbrev Config.cellPayloadMax : Nat := 12

/-- NTC_MAX: the temperature slots of a BasicInfo record (R6, R200). -/
abbrev Config.ntcMax : Nat := 3

/-- The start marker of a frame (R106, R162). -/
abbrev Config.startMarker : Byte := 0xDD

/-- The end marker of a frame (R106, R163). -/
abbrev Config.endMarker : Byte := 0x77

end Sys2Proof
end

