-- ==== Sys2Proof/Machine/State.lean ====
section
/-! DEFINITION. The state of one block instance (spec/10_state.md R30 to R50) in the four groups R30 names, the host's
side of its two ports (the model's own), the reasons a step can stop, and the reset state (R57). -/

namespace Sys2Proof.Machine

/-- RTYPE, the validator's classification (R40); the four codes of R112. -/
inductive RType where
  | none
  | basic
  | cells
  | unknown
  deriving DecidableEq, Repr

/-- REC_KIND, which record the record group holds (R48); the three codes of R113. -/
inductive RecKind where
  | none
  | basic
  | cells
  deriving DecidableEq, Repr

/-- RES_STAGE, the stage that wrote RESULT (R36); the four codes of R115. -/
inductive Stage where
  | none
  | validate
  | decode
  | command
  deriving DecidableEq, Repr

/-- RESULT, the kind of the last result (R35); the twelve kinds of R114. -/
inductive ResultKind where
  | ok
  | incompleteFrame
  | invalidStartByte
  | invalidEndByte
  | lengthMismatch
  | deviceStatusError
  | unknownResponseType
  | checksumMismatch
  | unsupportedType
  | recordSizeMismatch
  | notValidated
  | illegalCommand
  deriving DecidableEq, Repr

/-- The bytes of CAP_BUF written since reset, as pairs of an index and a byte in rising order of index; an index that is
not listed holds no defined value (R31, R57). -/
abbrev Memory := List Host.Cell

/-- The capture group (R30 a): CAP_BUF, CAP_LEN, LAST_BYTE (R31 to R33). -/
structure CaptureRegs where
  buf : Memory
  len : Half
  last : Byte
  deriving DecidableEq, Repr

/-- The result group (R30 b): RESULT, RES_STAGE, DIAG_OBS, DIAG_EXP (R35 to R38). -/
structure ResultRegs where
  kind : ResultKind
  stage : Stage
  obs : Half
  exp : Half
  deriving DecidableEq, Repr

/-- The frame group (R30 c): FRAME_VALID, RTYPE, TYPE_CODE, DEV_STATUS, PAY_LEN, CSUM_RX, CSUM_CALC (R39 to R44). -/
structure FrameRegs where
  valid : Bool
  rtype : RType
  typeCode : Byte
  devStatus : Byte
  payLen : Byte
  csumRx : Half
  csumCalc : Half
  deriving DecidableEq, Repr

/-- The BasicInfo register file (R45): BI_TOTAL_V to BI_CSUM, in the order of its table. -/
structure BasicInfo where
  totalV : Half
  current : Half
  remainCap : Half
  nominalCap : Half
  cycles : Half
  date : Half
  balance : Word
  protect : Half
  swVer : Byte
  soc : Byte
  fet : Byte
  cells : Byte
  ntcCount : Byte
  tempCount : BitVec 2
  temp : Vector Half 3
  trailer : Vector Byte 9
  csum : Half
  deriving DecidableEq, Repr

/-- The CellVoltage register file (R46): CV_COUNT, CV_CELL[0..5], CV_CSUM. -/
structure CellVoltage where
  count : BitVec 3
  cell : Vector Half 6
  csum : Half
  deriving DecidableEq, Repr

/-- The record group (R30 d): REC_KIND and the two register files (R45, R46, R48). -/
structure RecordRegs where
  kind : RecKind
  bi : BasicInfo
  cv : CellVoltage
  deriving DecidableEq, Repr

/-- What the host can do to the block, each between two commands (R52, R54, R290). -/
inductive HostAction where
  /-- The host writes a word to the command port (R54, R100). -/
  | write (w : Half)
  /-- The host reads an address of the read port (R51, R52). -/
  | read (a : BitVec 12)
  /-- The system resets the block (R290). -/
  | reset
  deriving DecidableEq, Repr

/-- The MODEL's own fields, no state of the block (R30 excludes the command sequence): what the host does next, oldest
first (log 3); what the read port answered last (log 4); how many resets there were, which only the free value of
unwritten capture bytes reads (log 2). -/
structure HostSide where
  pending : List HostAction
  readData : Word
  resets : Nat
  deriving DecidableEq, Repr

/-- The state of one block instance, "exactly" the four groups of R30, and beside them the host's side. -/
structure State where
  capture : CaptureRegs
  result : ResultRegs
  frame : FrameRegs
  record : RecordRegs
  host : HostSide
  deriving DecidableEq, Repr

/-- The reasons a step can stop the machine: none. Every failure is a result value and "none is fatal" (R9, R264, R266),
every 16-bit word has an effect (R103) and every 12-bit address reads (R51). Safe (log 8). -/
inductive Fault where
  deriving DecidableEq, Repr

/-- The reasons the model gives an instruction no meaning. -/
inductive Refusal where
  /-- An instruction the model gives no meaning yet, by its mnemonic. Raised by no arm: every row has its meaning. Safe. -/
  | notModelled (mnemonic : String)
  deriving DecidableEq, Repr

/-- The result group at reset and after CLEAR (R57, R141): RESULT = OK with RES_STAGE = NONE, "no command has produced a
result". -/
def ResultRegs.cleared : ResultRegs := ⟨.ok, .none, 0, 0⟩

/-- The frame group after `clear_frame()` (R55) and at reset (R57). -/
def FrameRegs.cleared : FrameRegs := ⟨false, .none, 0, 0, 0, 0, 0⟩

/-- The BasicInfo register file with 0 in every register (R56). -/
def BasicInfo.zero : BasicInfo :=
  { totalV := 0, current := 0, remainCap := 0, nominalCap := 0, cycles := 0, date := 0, balance := 0, protect := 0
    swVer := 0, soc := 0, fet := 0, cells := 0, ntcCount := 0, tempCount := 0, temp := #v[0, 0, 0]
    trailer := #v[0, 0, 0, 0, 0, 0, 0, 0, 0], csum := 0 }

/-- The CellVoltage register file with 0 in every register (R56). -/
def CellVoltage.zero : CellVoltage := ⟨0, #v[0, 0, 0, 0, 0, 0], 0⟩

/-- The record group after `clear_record()` (R56) and at reset (R57). -/
def RecordRegs.cleared : RecordRegs := ⟨.none, .zero, .zero⟩

/-- The state right after reset (R57, R290): every register at the value R57 gives, and no byte of CAP_BUF written. The
host's side is the model's own: DESIGN CHOICE (log 2, log 3, log 4). -/
def State.reset : State :=
  { capture := ⟨[], 0, 0⟩, result := .cleared, frame := .cleared, record := .cleared, host := ⟨[], 0, 0⟩ }

end Sys2Proof.Machine
end

