-- ==== Sys2Proof/Machine/Ops.lean ====
section
/-! DEFINITION. The named operations over the capture buffer and the registers: `MemRead` and `MemWrite` (R8), the ends of
a command `raise` and `succeed()` (R8), and the hardware reset (R290). A "raise" is the block's whole exception mechanism:
it writes the four result registers and ends the command; nothing is saved and nothing is returned from (R9, R266, R267). -/

namespace Sys2Proof.Machine

/-- The byte written at an index since reset, if any (R31). -/
def Memory.read : Memory → Nat → Option Byte
  | [], _ => none
  | (a, b) :: m, i => if i = a then some b else Memory.read m i

/-- The capture bytes after one byte is written (R8 `MemWrite`, R88): the list stays in rising order of index. -/
def Memory.write : Memory → Nat → Byte → Memory
  | [], i, v => [(i, v)]
  | (a, b) :: m, i, v =>
    if i < a then (i, v) :: (a, b) :: m
    else if i = a then (a, v) :: m
    else (a, b) :: Memory.write m i v

/-- Every index listed is in the capture space and above `lo`, and they rise strictly. -/
def Memory.wfAbove : Nat → Memory → Bool
  | _, [] => true
  | lo, (a, _) :: m => decide (lo ≤ a) && decide (a < Config.capSize) && Memory.wfAbove (a + 1) m

/-- The canonical form of the capture bytes: indices strictly rising, all below 262 (R31, R80 a). An unlisted index holds
no value, so no entry can equal what an unlisted index holds. -/
def Memory.wf (m : Memory) : Bool := Memory.wfAbove 0 m

/-- `CAP_BUF[i]` (R8). A byte not written since reset holds no defined value (R31, R57, U1): it reads as a free value. -/
def capByte (s : State) (i : Nat) : Byte :=
  (s.capture.buf.read i).getD (Config.unspecifiedByte s.host.resets i)

/-- `MemRead(i, n)`: the list of the n bytes `CAP_BUF[i] .. CAP_BUF[i+n-1]` (R8). -/
def memRead (s : State) (i : Nat) : Nat → List Byte
  | 0 => []
  | n + 1 => capByte s i :: memRead s (i + 1) n

/-- `MemWrite(i, 1, v)`: one byte of CAP_BUF; used by PUSH alone (R8, R31). -/
def memWrite (s : State) (i : Nat) (v : Byte) : State :=
  { s with capture := { s.capture with buf := s.capture.buf.write i v } }

/-- `raise K(obs, exp)` at a stage (R8, R260): the four result registers; no other state. -/
def State.raise (s : State) (stage : Stage) (kind : ResultKind) (obs exp : Half) : State :=
  { s with result := ⟨kind, stage, obs, exp⟩ }

/-- `succeed()` at a stage (R8): RESULT OK and both diagnostics 0. -/
def State.succeed (s : State) (stage : Stage) : State :=
  { s with result := ⟨.ok, stage, 0, 0⟩ }

/-- The effect of a reserved or illegal command word (R103): `stage <- COMMAND; raise IllegalCommand(word, 0)`. -/
def raiseIllegal (w : Half) (s : State) : State := s.raise .command .illegalCommand w 0

/-- The hardware reset (R290): every register at its reset value (R57), every byte of CAP_BUF unspecified. The count of
resets moves on, so that those bytes are free anew; the host's side stays (log 2, log 12). -/
def hardReset (s : State) : State :=
  { State.reset with host := { s.host with resets := s.host.resets + 1 } }

end Sys2Proof.Machine
end

