-- ==== Sys2Proof/Machine/Operands.lean ====
section
/-! DEFINITION. The operands of the commands: the big-endian-to-native decoder's byte assembly (R82 to R86, R120), the
length arithmetic (R107), and the codes of the coded registers (R112 to R115). -/

namespace Sys2Proof.Machine

/-- `zext_16` of a byte (R8). -/
def zext16 (b : Byte) : Half := b.setWidth 16

/-- `be16(i)`: the byte at i is most significant (R82). -/
def be16 (s : State) (i : Nat) : Half := capByte s i ++ capByte s (i + 1)

/-- `be32(i)`: the byte at i is most significant (R83). -/
def be32 (s : State) (i : Nat) : Word :=
  ((capByte s i ++ capByte s (i + 1)) ++ capByte s (i + 2)) ++ capByte s (i + 3)

/-- Two bytes copied in wire order and read as a number by a host of the given byte order (R85). -/
def nativePair : ByteOrder → Byte → Byte → Half
  | .little, first, second => second ++ first
  | .big, first, second => first ++ second

/-- `native16(i)`: what a host of byte order HOST_BYTE_ORDER reads from the two raw bytes (R85). -/
def native16 (s : State) (i : Nat) : Half :=
  nativePair Config.hostByteOrder (capByte s i) (capByte s (i + 1))

/-- `s16(v)`: the signed reading of a 16-bit pattern (R84). -/
def s16 (v : Half) : Int := if v.toNat < 0x8000 then v.toNat else (v.toNat : Int) - 65536

/-- The bytes of a frame that declares N payload bytes: `4 + N + 2 + 1`, exact arithmetic (R107, R165). -/
def frameLength (n : Byte) : Nat := 4 + n.toNat + 2 + 1

/-- The wire type code to the classification (R110, R167). -/
def classify (typeCode : Byte) : RType :=
  if typeCode = 0x03 then .basic else if typeCode = 0x04 then .cells else .unknown

/-- The longest acceptable CellVoltage payload not longer than N: "min(N, 12) with bit 0 cleared" (R194). -/
def cellLenExpected (n : Byte) : Half := BitVec.ofNat 16 (min n.toNat Config.cellPayloadMax / 2 * 2)

/-- The response type PARSE passes to DECODE (R245); NONE is "not a legal DECODE operand" (R112). -/
def RType.operand : RType → Option ResponseType
  | .none => Option.none
  | .basic => some .basic
  | .cells => some .cells
  | .unknown => some .unknown

/-- The code of a classification (R112). -/
def RType.code : RType → BitVec 2
  | .none => 0
  | .basic => 1
  | .cells => 2
  | .unknown => 3

/-- The code of a record kind (R113). -/
def RecKind.code : RecKind → BitVec 2
  | .none => 0
  | .basic => 1
  | .cells => 2

/-- The code of a result kind (R114). -/
def ResultKind.code : ResultKind → Byte
  | .ok => 0x00
  | .incompleteFrame => 0x01
  | .invalidStartByte => 0x02
  | .invalidEndByte => 0x03
  | .lengthMismatch => 0x04
  | .deviceStatusError => 0x05
  | .unknownResponseType => 0x06
  | .checksumMismatch => 0x07
  | .unsupportedType => 0x08
  | .recordSizeMismatch => 0x09
  | .notValidated => 0x0A
  | .illegalCommand => 0x0B

/-- The code of a stage (R115). -/
def Stage.code : Stage → BitVec 2
  | .none => 0
  | .validate => 1
  | .decode => 2
  | .command => 3

end Sys2Proof.Machine
end

