-- ==== Sys2Proof/Machine/Flags.lean ====
section
/-! DEFINITION. The block's flags, FRAME_VALID and REC_KIND (R49), with the group clears that reset them (R55, R56) and the
latches of the frame group (R164, R167, R168). There are no condition codes (R49). -/

namespace Sys2Proof.Machine

/-- `clear_frame()` (R55). -/
def clearFrame (s : State) : State := { s with frame := .cleared }

/-- `clear_record()` (R56). -/
def clearRecord (s : State) : State := { s with record := .cleared }

/-- A write of FRAME_VALID (R39). -/
def setFrameValid (s : State) (v : Bool) : State := { s with frame := { s.frame with valid := v } }

end Sys2Proof.Machine
end

