-- ==== Sys2Proof/Machine/Capture.lean ====
section
/-! DEFINITION. The capture commands NOP, CLEAR and PUSH (spec/40_capture.md R140 to R143). -/

namespace Sys2Proof.Machine

/-- NOP: no operation (R140). -/
def execNop (s : State) : Host.Outcome State Fault Refusal := .next s

/-- CLEAR: the count, the last byte, the frame, record and result groups; CAP_BUF is not written (R141). -/
def execClear (s : State) : Host.Outcome State Fault Refusal :=
  let t := clearRecord (clearFrame { s with capture := { s.capture with len := 0, last := 0 } })
  .next { t with result := .cleared }

/-- CAP_LEN after one more PUSH: it counts and saturates at 0xFFFF (R32, R142). -/
def nextLen (len : Half) : Half := if len.toNat < 0xFFFF then len + 1 else len

/-- The capture group's part of PUSH (R142): the byte is stored only below index 262, and is counted and kept as
LAST_BYTE in any case. The index test uses CAP_LEN before the increment. -/
def captureByte (b : Byte) (s : State) : State :=
  let t := if s.capture.len.toNat < Config.capSize then memWrite s s.capture.len.toNat b else s
  { t with capture := { t.capture with last := b, len := nextLen s.capture.len } }

/-- PUSH b: append one captured byte; FRAME_VALID and the record group fall (R142). -/
def execPush (b : Byte) (s : State) : Host.Outcome State Fault Refusal :=
  .next (clearRecord (setFrameValid (captureByte b s) false))

end Sys2Proof.Machine
end

