-- ==== Sys2Proof/Machine/Record.lean ====
section
/-! DEFINITION. DECODE: the record demultiplexer and the big-endian field loads (spec/42_decode.md R190 to R213, R219; the
layouts are spec/30_encoding.md R118 and R119). -/

namespace Sys2Proof.Machine

/-- BI_TEMP_COUNT: `min(ntc_count, 3)` (R200). -/
def tempCountOf (ntcCount : Byte) : BitVec 2 := BitVec.ofNat 2 (min ntcCount.toNat Config.ntcMax)

/-- BI_TEMP[i]: converted below BI_TEMP_COUNT (R201), the raw bytes in host order at or beyond it (R203). -/
def tempSlot (s : State) (i : Nat) : Half :=
  if i < (tempCountOf (capByte s 26)).toNat then be16 s (27 + 2 * i) else native16 s (27 + 2 * i)

/-- `decode_basic(N)`: every BasicInfo register from the capture (R195 to R205), nothing range-checked (R206). -/
def basicRecord (s : State) (n : Nat) : BasicInfo :=
  { totalV := be16 s 4
    current := be16 s 6
    remainCap := be16 s 8
    nominalCap := be16 s 10
    cycles := be16 s 12
    date := be16 s 14
    balance := be32 s 16
    protect := be16 s 20
    swVer := capByte s 22
    soc := capByte s 23
    fet := capByte s 24
    cells := capByte s 25
    ntcCount := capByte s 26
    tempCount := tempCountOf (capByte s 26)
    temp := #v[tempSlot s 0, tempSlot s 1, tempSlot s 2]
    trailer := #v[capByte s 33, capByte s 34, capByte s 35, capByte s 36, capByte s 37, capByte s 38, capByte s 39,
      capByte s 40, capByte s 41]
    csum := be16 s (4 + n) }

/-- CV_CELL[i]: the i-th cell below CV_COUNT, 0x0000 at or beyond it (R210, R211; log 7). -/
def cellSlot (s : State) (n i : Nat) : Half := if i < n / 2 then be16 s (4 + 2 * i) else 0x0000

/-- `decode_cells(N)`: every CellVoltage register (R210 to R212). -/
def cellRecord (s : State) (n : Nat) : CellVoltage :=
  { count := BitVec.ofNat 3 (n / 2)
    cell := #v[cellSlot s n 0, cellSlot s n 1, cellSlot s n 2, cellSlot s n 3, cellSlot s n 4, cellSlot s n 5]
    csum := be16 s (4 + n) }

/-- DECODE BASIC after the first two checks: the size check (R193), the field loads (R195), the second integrity gate
(R208), the commit (R213). -/
def decodeBasic (s : State) : State :=
  let n := s.frame.payLen.toNat
  if n ≠ Config.basicPayloadLen then
    s.raise .decode .recordSizeMismatch (zext16 s.frame.payLen) (BitVec.ofNat 16 Config.basicPayloadLen)
  else
    let t := { s with record := { s.record with bi := basicRecord s n } }
    if t.record.bi.csum ≠ t.frame.csumCalc then
      (clearRecord t).raise .decode .checksumMismatch t.record.bi.csum t.frame.csumCalc
    else State.succeed { t with record := { t.record with kind := .basic } } .decode

/-- DECODE CELLS after the first two checks: the size check (R194), the field loads (R210), the commit (R213). There is no
second gate (R212). -/
def decodeCells (s : State) : State :=
  let n := s.frame.payLen.toNat
  if n % 2 = 1 ∨ Config.cellPayloadMax < n then
    s.raise .decode .recordSizeMismatch (zext16 s.frame.payLen) (cellLenExpected s.frame.payLen)
  else
    let t := { s with record := { s.record with cv := cellRecord s n } }
    State.succeed { t with record := { t.record with kind := .cells } } .decode

/-- DECODE T (R190): the record group falls first; UNKNOWN is refused before FRAME_VALID is looked at (R191); a capture
that is not validated is refused (R192). T is not compared with RTYPE (R219). -/
def decodeRecord (ty : ResponseType) (s : State) : State :=
  let t := clearRecord s
  if ty = .unknown then t.raise .decode .unsupportedType 0x03 0
  else if t.frame.valid = false then t.raise .decode .notValidated 0 0
  else if ty = .basic then decodeBasic t
  else decodeCells t

/-- DECODE BASIC (R190). -/
def execDecodeBasic (s : State) : Host.Outcome State Fault Refusal := .next (decodeRecord .basic s)

/-- DECODE CELLS (R190). -/
def execDecodeCells (s : State) : Host.Outcome State Fault Refusal := .next (decodeRecord .cells s)

/-- DECODE UNKNOWN (R190, R191). -/
def execDecodeUnknown (s : State) : Host.Outcome State Fault Refusal := .next (decodeRecord .unknown s)

end Sys2Proof.Machine
end

