-- ==== Sys2Proof/Machine/Checksum.lean ====
section
/-! DEFINITION. The checksum validator: the 16-bit additive checksum over status, length and payload (R230, R231). -/

namespace Sys2Proof.Machine

/-- The accumulator ACC after the covered bytes are added, modulo 65536 (R230 `sum`, R231). -/
def checksumSum (st n : Byte) (p : List Byte) : Half :=
  p.foldl (fun acc b => acc + zext16 b) (zext16 st + zext16 n)

/-- `checksum(s, n, p)`: the 16-bit two's-complement negation of the sum (R230). -/
def checksum (st n : Byte) (p : List Byte) : Half := ~~~ checksumSum st n p + 1

end Sys2Proof.Machine
end

