-- ==== Sys2Proof/Machine/Validate.lean ====
section
/-! DEFINITION. VALIDATE: the eight-step validation sequence in its order (spec/41_validate.md R160 to R177). -/

namespace Sys2Proof.Machine

/-- Step 4: bytes 1, 2 and 3 of the capture into TYPE_CODE, DEV_STATUS and PAY_LEN (R164). -/
def latchHeader (s : State) : State :=
  { s with frame :=
    { s.frame with typeCode := capByte s 1, devStatus := capByte s 2, payLen := capByte s 3 } }

/-- Step 7: the classification of TYPE_CODE into RTYPE (R167). -/
def latchType (s : State) : State :=
  { s with frame := { s.frame with rtype := classify s.frame.typeCode } }

/-- Step 8: the computed and the transmitted checksum, latched whether or not they agree (R168). -/
def latchChecksums (s : State) : State :=
  let n := s.frame.payLen.toNat
  { s with frame :=
    { s.frame with csumCalc := checksum (capByte s 2) (capByte s 3) (memRead s 4 n), csumRx := be16 s (4 + n) } }

/-- Step 8 and the success (R168, R169). -/
def validateChecksum (s : State) : State :=
  let t := latchChecksums s
  if t.frame.csumRx ≠ t.frame.csumCalc then
    t.raise .validate .checksumMismatch t.frame.csumRx t.frame.csumCalc
  else (setFrameValid t true).succeed .validate

/-- Step 7 and what follows it (R167). -/
def validateType (s : State) : State :=
  let t := latchType s
  if t.frame.rtype = .unknown then t.raise .validate .unknownResponseType (zext16 t.frame.typeCode) 0
  else validateChecksum t

/-- Steps 4 to 6 and what follows them (R164 to R166). -/
def validateHeader (s : State) : State :=
  let t := latchHeader s
  if t.capture.len.toNat ≠ frameLength t.frame.payLen then
    t.raise .validate .lengthMismatch t.capture.len (BitVec.ofNat 16 (frameLength t.frame.payLen))
  else if t.frame.devStatus ≠ 0x00 then
    t.raise .validate .deviceStatusError (zext16 t.frame.devStatus) 0
  else validateType t

/-- The validation sequence (R160): the group clears, then steps 1 to 3 (R161 to R163), then the rest; the first step
that fails ends it (R170). -/
def validate (s : State) : State :=
  let t := clearRecord (clearFrame s)
  if t.capture.len.toNat < Config.minFrame then
    t.raise .validate .incompleteFrame t.capture.len (BitVec.ofNat 16 Config.minFrame)
  else if capByte t 0 ≠ Config.startMarker then
    t.raise .validate .invalidStartByte (zext16 (capByte t 0)) (zext16 Config.startMarker)
  else if t.capture.last ≠ Config.endMarker then
    t.raise .validate .invalidEndByte (zext16 t.capture.last) (zext16 Config.endMarker)
  else validateHeader t

/-- VALIDATE (R160). -/
def execValidate (s : State) : Host.Outcome State Fault Refusal := .next (validate s)

end Sys2Proof.Machine
end

