-- ==== Sys2Proof/Machine/Parse.lean ====
section
/-! DEFINITION. PARSE: VALIDATE, then DECODE RTYPE if the result is OK, as one command (spec/44_parse.md R245). -/

namespace Sys2Proof.Machine

/-- `DECODE RTYPE` (R245). RTYPE is BASIC or CELLS whenever VALIDATE answers OK (R169); NONE is no legal operand (R112) and
would decode nothing (DEDUCED, safe: log 13). -/
def decodeAsClassified (s : State) : State :=
  match s.frame.rtype.operand with
  | some ty => decodeRecord ty s
  | none => s

/-- PARSE (R245): the two parts as one atomic step. -/
def parse (s : State) : State :=
  let t := validate s
  if t.result.kind = .ok then decodeAsClassified t else t

/-- PARSE (R245). -/
def execParse (s : State) : Host.Outcome State Fault Refusal := .next (parse s)

end Sys2Proof.Machine
end

