-- ==== Sys2Proof/Machine/Dispatch.lean ====
section
/-! DEFINITION. The meaning of each command, one arm per constructor of `Instr`. -/

namespace Sys2Proof.Machine

def exec (i : Instr) (s : State) : Host.Outcome State Fault Refusal :=
  match i with
  | .nop => Sys2Proof.Machine.execNop s
  | .clear => Sys2Proof.Machine.execClear s
  | .push b => Sys2Proof.Machine.execPush b s
  | .validate => Sys2Proof.Machine.execValidate s
  | .decodeBasic => Sys2Proof.Machine.execDecodeBasic s
  | .decodeCells => Sys2Proof.Machine.execDecodeCells s
  | .decodeUnknown => Sys2Proof.Machine.execDecodeUnknown s
  | .parse => Sys2Proof.Machine.execParse s

end Sys2Proof.Machine
end

