-- ==== Sys2Proof/Machine/Port.lean ====
section
/-! DEFINITION. The two ports of the block (R80, R90): the register read space with its map (R51 to R53), the command port
(R100, R103), and the three things the host can do between commands (R11, R290). -/

namespace Sys2Proof.Machine

/-- The registers of the read port, one name per row of R51. -/
inductive Reg where
  | capLen | lastByte | result | resStage | diagObs | diagExp
  | frameValid | rtype | typeCode | devStatus | payLen | csumRx | csumCalc | recKind
  | biTotalV | biCurrent | biRemainCap | biNominalCap | biCycles | biDate | biBalance | biProtect
  | biSwVer | biSoc | biFet | biCells | biNtcCount | biTempCount
  | biTemp (i : Fin 3) | biTrailer (j : Fin 9) | biCsum
  | cvCount | cvCell (i : Fin 6) | cvCsum
  | capBuf (i : Fin 262)
  deriving DecidableEq, Repr

/-- The address of a register (R51). -/
def Reg.address : Reg → Nat
  | .capLen => 0x000
  | .lastByte => 0x001
  | .result => 0x002
  | .resStage => 0x003
  | .diagObs => 0x004
  | .diagExp => 0x005
  | .frameValid => 0x006
  | .rtype => 0x007
  | .typeCode => 0x008
  | .devStatus => 0x009
  | .payLen => 0x00A
  | .csumRx => 0x00B
  | .csumCalc => 0x00C
  | .recKind => 0x00D
  | .biTotalV => 0x010
  | .biCurrent => 0x011
  | .biRemainCap => 0x012
  | .biNominalCap => 0x013
  | .biCycles => 0x014
  | .biDate => 0x015
  | .biBalance => 0x016
  | .biProtect => 0x017
  | .biSwVer => 0x018
  | .biSoc => 0x019
  | .biFet => 0x01A
  | .biCells => 0x01B
  | .biNtcCount => 0x01C
  | .biTempCount => 0x01D
  | .biTemp i => 0x01E + i.val
  | .biTrailer j => 0x021 + j.val
  | .biCsum => 0x02A
  | .cvCount => 0x030
  | .cvCell i => 0x031 + i.val
  | .cvCsum => 0x037
  | .capBuf i => 0x100 + i.val

/-- The registers at the addresses 0x000 to 0x01D, in order of address; none at the two reserved ones (R51). -/
def lowRegs : List (Option Reg) :=
  [some .capLen, some .lastByte, some .result, some .resStage, some .diagObs, some .diagExp, some .frameValid,
   some .rtype, some .typeCode, some .devStatus, some .payLen, some .csumRx, some .csumCalc, some .recKind, none, none,
   some .biTotalV, some .biCurrent, some .biRemainCap, some .biNominalCap, some .biCycles, some .biDate,
   some .biBalance, some .biProtect, some .biSwVer, some .biSoc, some .biFet, some .biCells, some .biNtcCount,
   some .biTempCount]

/-- The register at an address: none at a reserved address (R51). -/
def Reg.atAddress (a : Nat) : Option Reg :=
  if a < 0x01E then (lowRegs[a]?).join
  else if h : a - 0x01E < 3 then some (.biTemp ⟨a - 0x01E, h⟩)
  else if h : a - 0x021 < 9 then some (.biTrailer ⟨a - 0x021, h⟩)
  else if a = 0x02A then some .biCsum
  else if a < 0x030 then none
  else if a = 0x030 then some .cvCount
  else if h : a - 0x031 < 6 then some (.cvCell ⟨a - 0x031, h⟩)
  else if a = 0x037 then some .cvCsum
  else if a < 0x100 then none
  else if h : a - 0x100 < 262 then some (.capBuf ⟨a - 0x100, h⟩)
  else none

/-- `zext_32` of a register's bits (R8, R51). -/
def zext32 {n : Nat} (v : BitVec n) : Word := v.setWidth 32

/-- The value of a register "zero-extended to 32 bits" (R51); the window onto CAP_BUF is R53, and BI_CURRENT reads as its
pattern (R52). -/
def Reg.value (s : State) : Reg → Word
  | .capLen => zext32 s.capture.len
  | .lastByte => zext32 s.capture.last
  | .result => zext32 s.result.kind.code
  | .resStage => zext32 s.result.stage.code
  | .diagObs => zext32 s.result.obs
  | .diagExp => zext32 s.result.exp
  | .frameValid => zext32 (BitVec.ofBool s.frame.valid)
  | .rtype => zext32 s.frame.rtype.code
  | .typeCode => zext32 s.frame.typeCode
  | .devStatus => zext32 s.frame.devStatus
  | .payLen => zext32 s.frame.payLen
  | .csumRx => zext32 s.frame.csumRx
  | .csumCalc => zext32 s.frame.csumCalc
  | .recKind => zext32 s.record.kind.code
  | .biTotalV => zext32 s.record.bi.totalV
  | .biCurrent => zext32 s.record.bi.current
  | .biRemainCap => zext32 s.record.bi.remainCap
  | .biNominalCap => zext32 s.record.bi.nominalCap
  | .biCycles => zext32 s.record.bi.cycles
  | .biDate => zext32 s.record.bi.date
  | .biBalance => s.record.bi.balance
  | .biProtect => zext32 s.record.bi.protect
  | .biSwVer => zext32 s.record.bi.swVer
  | .biSoc => zext32 s.record.bi.soc
  | .biFet => zext32 s.record.bi.fet
  | .biCells => zext32 s.record.bi.cells
  | .biNtcCount => zext32 s.record.bi.ntcCount
  | .biTempCount => zext32 s.record.bi.tempCount
  | .biTemp i => zext32 s.record.bi.temp[i]
  | .biTrailer j => zext32 s.record.bi.trailer[j]
  | .biCsum => zext32 s.record.bi.csum
  | .cvCount => zext32 s.record.cv.count
  | .cvCell i => zext32 s.record.cv.cell[i]
  | .cvCsum => zext32 s.record.cv.csum
  | .capBuf i => zext32 (capByte s i.val)

/-- The read port: the register at the address, and 0 at a reserved address (R51, U12). -/
def readPort (s : State) (a : BitVec 12) : Word :=
  match Reg.atAddress a.toNat with
  | some r => r.value s
  | none => 0

/-- What one word on the command port does: a legal word runs its command (R101), a word the decoder refuses raises
IllegalCommand and changes nothing else (R103; log 5). -/
def runWord (w : Half) (s : State) : Host.Outcome State Fault Refusal :=
  match decode w with
  | .ok i => exec i s
  | .error _ => .next (raiseIllegal w s)

/-- A register read: the port answers, and no state of the block changes (R52, R89; log 4). -/
def hostRead (a : BitVec 12) (s : State) : State :=
  { s with host := { s.host with readData := readPort s a } }

/-- One action of the host (R54, R52, R290). -/
def runAction : HostAction → State → Host.Outcome State Fault Refusal
  | .write w, s => runWord w s
  | .read a, s => .next (hostRead a s)
  | .reset, s => .next (hardReset s)

/-- The host's actions replaced (log 3). -/
def setPending (s : State) (p : List HostAction) : State := { s with host := { s.host with pending := p } }

/-- What the host does next, and the state with that action taken off its list (R92, R95: commands are written to the
port in an order the host chooses, never fetched from a memory; log 3). -/
def nextAction (s : State) : Option (HostAction × State) :=
  match s.host.pending with
  | [] => none
  | a :: rest => some (a, setPending s rest)

end Sys2Proof.Machine
end

