-- ==== Sys2Proof/Machine/Step.lean ====
section
/-! DEFINITION. One step of the machine: the host's next action, or nothing while the host is silent (R3, R274, R291). -/

namespace Sys2Proof.Machine

/-- One step: the block takes the host's next action; with none it "is idle between commands and keeps all its state while
idle" (R274). -/
def step (s : State) : Host.Outcome State Fault Refusal :=
  match nextAction s with
  | some (a, t) => runAction a t
  | none => .next s

/-- The state in which the host's next action is the write of the command word with these bits (log 3): the block fetches
no command from a memory, so this is where step takes its next command from. -/
def State.withFetchWord (s : State) (nbits w : Nat) : State :=
  setPending s (.write (tableWord nbits w) :: s.host.pending)

end Sys2Proof.Machine
end

