-- ==== Sys2Proof/Machine/Assembler.lean ====
section
/-! DEFINITION. The assembler (spec/30_encoding.md R116, R117): one line of characters to the commands it stands for, each
encoded by R101. The block does not run it; the lexical detail R116 leaves open is log 11. -/

namespace Sys2Proof.Machine

/-- The line up to the comment sign `;` (R116). -/
def dropComment : List Char → List Char
  | [] => []
  | c :: cs => if c = ';' then [] else c :: dropComment cs

/-- The nonempty pieces of a line between the characters that `sep` names, with a piece under way in `cur`. -/
def splitPieces (sep : Char → Bool) : List Char → List Char → List (List Char)
  | cur, [] => if cur.isEmpty then [] else [cur]
  | cur, c :: cs =>
    if sep c then (if cur.isEmpty then splitPieces sep [] cs else cur :: splitPieces sep [] cs)
    else splitPieces sep (cur ++ [c]) cs

/-- A space or a tab (log 11). -/
def isBlank (c : Char) : Bool := c == ' ' || c == '\t'

/-- A space, a tab or a comma: what separates LOADFRAME's operands (R117). -/
def isOperandGap (c : Char) : Bool := isBlank c || c == ','

/-- A digit in a base of at most 16, either case of letter (log 11). -/
def digitValue (base : Nat) (c : Char) : Option Nat :=
  let n := c.toNat
  let v := if 48 ≤ n ∧ n ≤ 57 then some (n - 48)
    else if 65 ≤ n ∧ n ≤ 70 then some (n - 55)
    else if 97 ≤ n ∧ n ≤ 102 then some (n - 87)
    else none
  match v with
  | some d => if d < base then some d else none
  | none => none

/-- The number that digits spell after a number already read. -/
def digitsValue (base : Nat) : Nat → List Char → Option Nat
  | acc, [] => some acc
  | acc, c :: cs =>
    match digitValue base c with
    | some d => digitsValue base (acc * base + d) cs
    | none => none

/-- A number 0 to 255 as a byte; a larger one is no byte (R116). -/
def byteOfNat (n : Nat) : Option Byte := if n ≤ 255 then some (BitVec.ofNat 8 n) else none

/-- PUSH's operand: "a number 0 to 255, written decimal or `0x` hex" (R116). -/
def parseImm8 : List Char → Option Byte
  | [] => none
  | '0' :: 'x' :: cs => if cs.isEmpty then none else (digitsValue 16 0 cs).bind byteOfNat
  | cs => (digitsValue 10 0 cs).bind byteOfNat

/-- LOADFRAME's operand: "a byte written as two hexadecimal digits without a `0x` prefix" (R117). -/
def parseHexByte : List Char → Option Byte
  | [a, b] => (digitsValue 16 0 [a, b]).bind byteOfNat
  | _ => none

/-- Every piece read as a byte, or none if one cannot be. -/
def parseHexBytes : List (List Char) → Option (List Byte)
  | [] => some []
  | p :: ps =>
    match parseHexByte p, parseHexBytes ps with
    | some b, some bs => some (b :: bs)
    | _, _ => none

/-- The pseudo-instruction LOADFRAME: CLEAR, then PUSH of each byte (R117). -/
def loadFrame (bs : List Byte) : List Instr := .clear :: bs.map .push

/-- A line's mnemonic and operand (R116); "it refuses any other mnemonic or operand". -/
def assemblePieces : List (List Char) → Option (List Instr)
  | [] => some []
  | [['N', 'O', 'P']] => some [.nop]
  | [['C', 'L', 'E', 'A', 'R']] => some [.clear]
  | [['P', 'U', 'S', 'H'], imm] => (parseImm8 imm).map fun b => [.push b]
  | [['V', 'A', 'L', 'I', 'D', 'A', 'T', 'E']] => some [.validate]
  | [['D', 'E', 'C', 'O', 'D', 'E'], ['B', 'A', 'S', 'I', 'C']] => some [.decodeBasic]
  | [['D', 'E', 'C', 'O', 'D', 'E'], ['C', 'E', 'L', 'L', 'S']] => some [.decodeCells]
  | [['D', 'E', 'C', 'O', 'D', 'E'], ['U', 'N', 'K', 'N', 'O', 'W', 'N']] => some [.decodeUnknown]
  | [['P', 'A', 'R', 'S', 'E']] => some [.parse]
  | _ => none

/-- The commands of one line: LOADFRAME expands (R117), any other line is one command or nothing (R116). -/
def assembleLine (line : List Char) : Option (List Instr) :=
  let text := dropComment line
  match splitPieces isOperandGap [] text with
  | ['L', 'O', 'A', 'D', 'F', 'R', 'A', 'M', 'E'] :: operands => (parseHexBytes operands).map loadFrame
  | _ => assemblePieces (splitPieces isBlank [] text)

/-- The command words of a program, one line after another (R116: "The assembler encodes each by rule R101"). -/
def assemble : List (List Char) → Option (List Half)
  | [] => some []
  | line :: lines =>
    match assembleLine line, assemble lines with
    | some is, some ws => some (is.map encode ++ ws)
    | _, _ => none

end Sys2Proof.Machine
end

