-- ==== Sys2Proof/Machine/Interpretation.lean ====
section
/-! DEFINITION. What the fields mean (spec/42_decode.md R214 to R216). The block computes none of this (R5 c, conflict C11):
no register holds these values and no command calls these functions. -/

namespace Sys2Proof.Machine

/-- The year of BI_DATE: `2000 + BI_DATE[15:9]` (R214). -/
def dateYear (raw : Half) : Nat := 2000 + (raw.extractLsb' 9 7).toNat

/-- The month of BI_DATE: `BI_DATE[8:5]` (R214). -/
def dateMonth (raw : Half) : Nat := (raw.extractLsb' 5 4).toNat

/-- The day of BI_DATE: `BI_DATE[4:0]` (R214). -/
def dateDay (raw : Half) : Nat := (raw.extractLsb' 0 5).toNat

/-- A temperature in degrees Celsius, `(raw - 2731) / 10` (R215), by exact division. DESIGN CHOICE, safe: U6 leaves the
rounding open (log 10). -/
def tempCelsius (raw : Half) : Rat := ((raw.toNat : Rat) - 2731) / 10

/-- A total pack voltage in volts: BI_TOTAL_V is centivolts (R216). -/
def packVolts (raw : Half) : Rat := (raw.toNat : Rat) / 100

/-- A current in amperes: BI_CURRENT is signed centiamps (R197, R216). Which sign is charging is the device's (U11). -/
def packAmps (raw : Half) : Rat := (s16 raw : Rat) / 100

/-- A capacity in ampere-hours: BI_REMAIN_CAP and BI_NOMINAL_CAP are deciamp-hours (R216). -/
def capacityAh (raw : Half) : Rat := (raw.toNat : Rat) / 10

/-- A cell voltage in volts: CV_CELL[i] is millivolts (R216). -/
def cellVolts (raw : Half) : Rat := (raw.toNat : Rat) / 1000

end Sys2Proof.Machine
end

