-- ==== Sys2Proof/Machine/Wire.lean ====
section
/-! DEFINITION. The wire formats: the response frame (R106, R107), the request frame whose checksum is the protocol's ground
truth (R108, R109), and the two record layouts as bytes (R118, R119). The block reads response frames; it builds none (R5,
R108): these functions say what a frame's bytes are. -/

namespace Sys2Proof.Machine

/-- A u16 on the wire, most significant byte first (R81). -/
def wire16 (v : Half) : List Byte := [v.extractLsb' 8 8, v.extractLsb' 0 8]

/-- A u32 on the wire, most significant byte first (R81). -/
def wire32 (v : Word) : List Byte :=
  [v.extractLsb' 24 8, v.extractLsb' 16 8, v.extractLsb' 8 8, v.extractLsb' 0 8]

/-- A response frame with a correct checksum (R106): start marker, type code, status, length, payload, checksum, end
marker. A frame of the protocol has a payload of at most 255 bytes. -/
def responseFrame (typeCode status : Byte) (payload : List Byte) : List Byte :=
  let n : Byte := BitVec.ofNat 8 payload.length
  [Config.startMarker, typeCode, status, n] ++ payload ++ wire16 (checksum status n payload) ++ [Config.endMarker]

/-- A request frame of a type (R108): bytes 4 and 5 are 0xFF and the low byte `0x100 - type` (R109). -/
def requestFrame (typeCode : Byte) : List Byte :=
  [Config.startMarker, 0xA5, typeCode, 0x00, 0xFF, 0 - typeCode, Config.endMarker]

/-- The 38 payload bytes of a BasicInfo record, field by field in wire order (R118). -/
def basicPayload (r : BasicInfo) : List Byte :=
  wire16 r.totalV ++ wire16 r.current ++ wire16 r.remainCap ++ wire16 r.nominalCap ++ wire16 r.cycles ++ wire16 r.date
    ++ wire32 r.balance ++ wire16 r.protect ++ [r.swVer, r.soc, r.fet, r.cells, r.ntcCount]
    ++ wire16 r.temp[0] ++ wire16 r.temp[1] ++ wire16 r.temp[2] ++ r.trailer.toList

/-- The payload bytes of a CellVoltage record: two bytes per cell (R119). -/
def cellPayload : List Half → List Byte
  | [] => []
  | v :: vs => wire16 v ++ cellPayload vs

end Sys2Proof.Machine
end

