-- ==== Sys2Proof/Safety.lean ====
section
/-! DEFINITION. What counts as a sound state of the block, and the words the claims use: a capture that holds a frame, a
capture that passes the eight steps, the invariant of every run, and two states that differ only in stale bytes. -/

namespace Sys2Proof.Machine

/-- The capture holds exactly these bytes: their count, each at its index, the last of them (R31 to R33). -/
def HoldsFrame (s : State) (bs : List Byte) : Prop :=
  s.capture.len.toNat = bs.length ∧ (∀ i b, bs[i]? = some b → capByte s i = b) ∧ s.capture.last = bs.getLastD 0

/-- The computed checksum of step 8, over bytes 2 .. 3+N of the capture (R168, R230). -/
def computedChecksum (s : State) : Half :=
  checksum (capByte s 2) (capByte s 3) (memRead s 4 (capByte s 3).toNat)

/-- The transmitted checksum of step 8: `be16(4 + N)` with N frame byte 3 (R168). -/
def transmittedChecksum (s : State) : Half := be16 s (4 + (capByte s 3).toNat)

/-- One of the eight steps of validation that can fail (R161 to R163, R165 to R168): the kind it rejects with, and
whether the capture passes it. -/
structure ValidationStep where
  kind : ResultKind
  passes : State → Bool

/-- The steps in the order of R170. -/
def validationSteps : List ValidationStep :=
  [⟨.incompleteFrame, fun s => decide (7 ≤ s.capture.len.toNat)⟩,
   ⟨.invalidStartByte, fun s => capByte s 0 == 0xDD⟩,
   ⟨.invalidEndByte, fun s => s.capture.last == 0x77⟩,
   ⟨.lengthMismatch, fun s => s.capture.len.toNat == 4 + (capByte s 3).toNat + 2 + 1⟩,
   ⟨.deviceStatusError, fun s => capByte s 2 == 0x00⟩,
   ⟨.unknownResponseType, fun s => capByte s 1 == 0x03 || capByte s 1 == 0x04⟩,
   ⟨.checksumMismatch, fun s => transmittedChecksum s == computedChecksum s⟩]

/-- The kind of the first step that the capture fails, OK if it passes all (R170). -/
def firstFailure : List ValidationStep → State → ResultKind
  | [], _ => .ok
  | v :: vs, s => if v.passes s then firstFailure vs s else v.kind

/-- The capture passes all eight steps. -/
def ValidCapture (s : State) : Prop := firstFailure validationSteps s = .ok

/-- The frame group after an OK validation (R171, last row). -/
def latchedFrame (s : State) : FrameRegs :=
  { valid := true, rtype := classify (capByte s 1), typeCode := capByte s 1, devStatus := capByte s 2
    payLen := capByte s 3, csumRx := transmittedChecksum s, csumCalc := computedChecksum s }

/-- The frame group that VALIDATE leaves with each result kind: the table of R171. -/
def frameAfter (s : State) : ResultKind → FrameRegs
  | .ok => latchedFrame s
  | .checksumMismatch => { latchedFrame s with valid := false }
  | .unknownResponseType =>
    ⟨false, .unknown, capByte s 1, capByte s 2, capByte s 3, 0, 0⟩
  | .lengthMismatch => ⟨false, .none, capByte s 1, capByte s 2, capByte s 3, 0, 0⟩
  | .deviceStatusError => ⟨false, .none, capByte s 1, capByte s 2, capByte s 3, 0, 0⟩
  | _ => ⟨false, .none, 0, 0, 0, 0, 0⟩

/-- The capture group is sound (R31 to R34): the list of bytes is in its canonical form, every index below
`min(CAP_LEN, 262)` was written, LAST_BYTE is 0 on an empty capture and CAP_BUF[CAP_LEN - 1] on one of at most 262. -/
structure CaptureInv (s : State) : Prop where
  wf : s.capture.buf.wf = true
  written : ∀ i, i < min s.capture.len.toNat 262 → (s.capture.buf.read i).isSome
  emptyLast : s.capture.len = 0 → s.capture.last = 0
  lastStored : 0 < s.capture.len.toNat → s.capture.len.toNat ≤ 262 →
    s.capture.buf.read (s.capture.len.toNat - 1) = some s.capture.last

/-- The frame group is sound: FRAME_VALID = 1 only while the capture is a valid frame that the frame group describes
(R39), and a register not reached reads 0 or NONE (R171). -/
structure FrameInv (s : State) : Prop where
  describes : s.frame.valid = true → ValidCapture s ∧ s.frame = latchedFrame s
  classified : s.frame.rtype ≠ .none → s.frame.rtype = classify s.frame.typeCode ∧ s.frame.devStatus = 0
  unreached : s.frame.rtype = .none ∨ s.frame.rtype = .unknown → s.frame.csumRx = 0 ∧ s.frame.csumCalc = 0

/-- The record group is sound: REC_KIND names a complete record of the validated frame, or every record register is 0
(R48, R213). -/
structure RecordInv (s : State) : Prop where
  noRecord : s.record.kind = .none → s.record = .cleared
  basicRecord : s.record.kind = .basic → s.frame.valid = true ∧ s.frame.payLen.toNat = 38 ∧
    s.record = ⟨.basic, Machine.basicRecord s 38, .zero⟩
  cellRecord : s.record.kind = .cells → s.frame.valid = true ∧ s.frame.payLen.toNat % 2 = 0 ∧
    s.frame.payLen.toNat ≤ 12 ∧ s.record = ⟨.cells, .zero, Machine.cellRecord s s.frame.payLen.toNat⟩

/-- The stage at which a kind may be recorded (R260), with no decode-stage ChecksumMismatch (R209). -/
def kindAtStage : ResultKind → Stage → Bool
  | .ok, .command => false
  | .ok, _ => true
  | .unsupportedType, .decode => true
  | .recordSizeMismatch, .decode => true
  | .notValidated, .decode => true
  | .illegalCommand, .command => true
  | .incompleteFrame, .validate => true
  | .invalidStartByte, .validate => true
  | .invalidEndByte, .validate => true
  | .lengthMismatch, .validate => true
  | .deviceStatusError, .validate => true
  | .unknownResponseType, .validate => true
  | .checksumMismatch, .validate => true
  | _, _ => false

/-- The result group is sound: the kind fits its stage (R260, R57), and both diagnostics are 0 after OK (R37, R38). -/
structure ResultInv (s : State) : Prop where
  stage : kindAtStage s.result.kind s.result.stage = true
  okDiag : s.result.kind = .ok → s.result.obs = 0 ∧ s.result.exp = 0

/-- The invariant of every run. -/
structure Inv (s : State) : Prop where
  capture : CaptureInv s
  frame : FrameInv s
  record : RecordInv s
  result : ResultInv s

/-- Two states of the block that agree on everything but the CAP_BUF bytes at an index at or beyond `min(CAP_LEN, 262)`
(U2, R292) and the model's count of resets. -/
structure SameButStale (s t : State) : Prop where
  len : s.capture.len = t.capture.len
  last : s.capture.last = t.capture.last
  bytes : ∀ i, i < min s.capture.len.toNat 262 → capByte s i = capByte t i
  result : s.result = t.result
  frame : s.frame = t.frame
  record : s.record = t.record
  pending : s.host.pending = t.host.pending
  readData : s.host.readData = t.host.readData

/-- The host's next action reads a stale byte through the window of R53. -/
def readsStale (s : State) : Bool :=
  match s.host.pending with
  | .read a :: _ =>
    decide (0x100 + min s.capture.len.toNat 262 ≤ a.toNat) && decide (a.toNat < 0x100 + 262)
  | _ => false

/-- Commands one after another (R92), stopping at the first fault or refusal. -/
def execAll : List Instr → State → Host.Outcome State Fault Refusal
  | [], s => .next s
  | i :: is, s =>
    match exec i s with
    | .next t => execAll is t
    | .fault r => .fault r
    | .refused r => .refused r

/-- The bytes that a sequence of commands pushes, in order (R34). -/
def pushedBytes : List Instr → List Byte
  | [] => []
  | .push b :: is => b :: pushedBytes is
  | .nop :: is => pushedBytes is
  | .clear :: is => pushedBytes is
  | .validate :: is => pushedBytes is
  | .decodeBasic :: is => pushedBytes is
  | .decodeCells :: is => pushedBytes is
  | .decodeUnknown :: is => pushedBytes is
  | .parse :: is => pushedBytes is

end Sys2Proof.Machine
end

