-- ==== Sys2Proof/Certificates/Slice0/Obligations.lean ====
section
/-! DEFINITION. The statements about the model, for the provers. Each docstring cites the rule of spec/ it formalises. A
statement that writes the whole next state says the frame with it: every group that stands as `s.…` is unchanged. -/

open Sys2Proof Sys2Proof.Machine

/-! ### Encoding -/

/-- R101, R102: every command is well formed, and decoding its word gives it back, with every operand. -/
def Obligations.DecodeOfEncodeIsTheCommand : Prop :=
  ∀ i : Instr, i.wellFormed = true ∧ decode (encode i) = .ok i

/-- R100, R101: no two words stand for one command; a word that decodes is the encoding of what it decodes to. -/
def Obligations.DecodedWordIsItsEncoding : Prop :=
  ∀ (w : Half) (i : Instr), decode w = .ok i → encode i = w

/-- R101, R103: the decoder accepts a word exactly where a row of the opcode table covers it, and exactly where its two
fields pass the checks of R103. -/
def Obligations.DecoderAcceptsExactlyTheTable : Prop :=
  ∀ w : Half,
    ((∃ i, decode w = .ok i) ↔ ∃ r ∈ opcodeTable, r.covers w = true) ∧
    ((∃ i, decode w = .ok i) ↔ (rawCommand w).wellFormed = true)

/-- R101: words written out bit by bit decode to the commands they stand for. -/
def Obligations.SampleWordsDecode : Prop :=
  decode 0b0000000000000000 = .ok .nop ∧ decode 0b0000000100000000 = .ok .clear ∧
  decode 0b0000001011011101 = .ok (.push 0b11011101) ∧ decode 0b0000001100000000 = .ok .validate ∧
  decode 0b0000010000000001 = .ok .decodeBasic ∧ decode 0b0000010000000010 = .ok .decodeCells ∧
  decode 0b0000010000000011 = .ok .decodeUnknown ∧ decode 0b0000010100000000 = .ok .parse

/-- R117: LOADFRAME stands for the word 0x0100 and then 0x0200 | b for each byte b. -/
def Obligations.LoadFrameIsClearThenPushes : Prop :=
  ∀ bs : List Byte, (loadFrame bs).map encode = 0x0100 :: bs.map fun b => 0x0200 ||| b.setWidth 16

/-! ### The step -/

/-- A word on the command port that decodes runs its command: step is exec of it, on the state in which the host's list
has moved past it (R100, R101; the list is the model's own, log 3). -/
def Obligations.StepRunsTheDecodedCommand : Prop :=
  ∀ (s : State) (w : Half) (rest : List HostAction) (i : Instr),
    s.host.pending = .write w :: rest → decode w = .ok i →
    step s = exec i { s with host := { s.host with pending := rest } }

/-- R103: a reserved or illegal word raises IllegalCommand(word, 0) at stage COMMAND and changes no other state of the
block. The words are those R103 lists, by their fields. That the host's list moves past the word is the model's own choice
(log 3), no part of R103. -/
def Obligations.IllegalWordRaisesIllegalCommand : Prop :=
  ∀ (s : State) (w : Half) (rest : List HostAction),
    s.host.pending = .write w :: rest →
    (0x06 ≤ w.toNat / 256 ∨
     ((w.toNat / 256 = 0x00 ∨ w.toNat / 256 = 0x01 ∨ w.toNat / 256 = 0x03 ∨ w.toNat / 256 = 0x05) ∧ w.toNat % 256 ≠ 0) ∨
     (w.toNat / 256 = 0x04 ∧ (w.toNat % 256 = 0x00 ∨ 0x04 ≤ w.toNat % 256))) →
    step s = .next { s with
      result := ⟨.illegalCommand, .command, w, 0⟩
      host := { s.host with pending := rest } }

/-- R274, R291: while the host does nothing, the block keeps all its state (the host's list is the model's own, log 3). -/
def Obligations.IdleStepKeepsTheState : Prop :=
  ∀ s : State, s.host.pending = [] → step s = .next s

/-- R52, R89: a register read changes no state of the block; the host gets the value the port shows (the last two fields
are the model's own, log 3 and log 4). -/
def Obligations.RegisterReadChangesNoRegister : Prop :=
  ∀ (s : State) (a : BitVec 12) (rest : List HostAction), s.host.pending = .read a :: rest →
    step s = .next { s with host := { s.host with pending := rest, readData := readPort s a } }

/-- R290, R57: the hardware reset between two commands, from any state. The host's side is the model's own (log 2,
log 12). -/
def Obligations.HardwareResetReachesTheResetState : Prop :=
  ∀ (s : State) (rest : List HostAction), s.host.pending = .reset :: rest →
    step s = .next { State.reset with host := { s.host with pending := rest, resets := s.host.resets + 1 } }

/-- No state, no command and no host action stops the machine. That a step never faults is the model's inference (log 8) from
R264 and R266 (every result is a value, none is fatal), R103 (every word has an effect), R51 and R52 (every address reads, with
no side effect), R290 (the reset) and R274 (the idle block keeps its state); the host's list, and the step that finds it
empty, are the model's choice (log 3). -/
def Obligations.StepAlwaysAnswersANextState : Prop :=
  ∀ s : State, ∃ t, step s = .next t

/-! ### Reset and the read port -/

/-- R57: every register's reset value. The bytes of CAP_BUF are unspecified, so nothing is said of them. -/
def Obligations.ResetStateHoldsTheResetValues : Prop :=
  State.reset.capture.len = 0 ∧ State.reset.capture.last = 0 ∧
  State.reset.result = ⟨.ok, .none, 0, 0⟩ ∧ ResultKind.ok.code = 0x00 ∧ Stage.none.code = 0 ∧
  State.reset.frame = ⟨false, .none, 0, 0, 0, 0, 0⟩ ∧ RType.none.code = 0 ∧
  State.reset.record.kind = .none ∧ RecKind.none.code = 0 ∧
  State.reset.record.bi =
    { totalV := 0, current := 0, remainCap := 0, nominalCap := 0, cycles := 0, date := 0, balance := 0, protect := 0
      swVer := 0, soc := 0, fet := 0, cells := 0, ntcCount := 0, tempCount := 0, temp := #v[0, 0, 0]
      trailer := #v[0, 0, 0, 0, 0, 0, 0, 0, 0], csum := 0 } ∧
  State.reset.record.cv = ⟨0, #v[0, 0, 0, 0, 0, 0], 0⟩

/-- R293: what each command answers straight after reset. -/
def Obligations.CommandsStraightAfterReset : Prop :=
  exec .validate State.reset = .next (State.reset.raise .validate .incompleteFrame 0 7) ∧
  exec .parse State.reset = .next (State.reset.raise .validate .incompleteFrame 0 7) ∧
  exec .decodeBasic State.reset = .next (State.reset.raise .decode .notValidated 0 0) ∧
  exec .decodeCells State.reset = .next (State.reset.raise .decode .notValidated 0 0) ∧
  exec .decodeUnknown State.reset = .next (State.reset.raise .decode .unsupportedType 0x03 0)

/-- R55, R56: the two group clears write 0 or NONE to every register of their groups and nothing else. -/
def Obligations.GroupClearsWriteZero : Prop :=
  ∀ s : State,
    clearFrame s = { s with frame := ⟨false, .none, 0, 0, 0, 0, 0⟩ } ∧
    clearRecord s = { s with record := ⟨.none,
      { totalV := 0, current := 0, remainCap := 0, nominalCap := 0, cycles := 0, date := 0, balance := 0, protect := 0
        swVer := 0, soc := 0, fet := 0, cells := 0, ntcCount := 0, tempCount := 0, temp := #v[0, 0, 0]
        trailer := #v[0, 0, 0, 0, 0, 0, 0, 0, 0], csum := 0 },
      ⟨0, #v[0, 0, 0, 0, 0, 0], 0⟩⟩ }

/-- R51, R53: the register map of the read port, every row; every other address reads 0. -/
def Obligations.ReadPortFollowsTheRegisterMap : Prop :=
  ∀ s : State,
    readPort s 0x000 = s.capture.len.setWidth 32 ∧ readPort s 0x001 = s.capture.last.setWidth 32 ∧
    readPort s 0x002 = s.result.kind.code.setWidth 32 ∧ readPort s 0x003 = s.result.stage.code.setWidth 32 ∧
    readPort s 0x004 = s.result.obs.setWidth 32 ∧ readPort s 0x005 = s.result.exp.setWidth 32 ∧
    readPort s 0x006 = (if s.frame.valid then 1 else 0) ∧ readPort s 0x007 = s.frame.rtype.code.setWidth 32 ∧
    readPort s 0x008 = s.frame.typeCode.setWidth 32 ∧ readPort s 0x009 = s.frame.devStatus.setWidth 32 ∧
    readPort s 0x00A = s.frame.payLen.setWidth 32 ∧ readPort s 0x00B = s.frame.csumRx.setWidth 32 ∧
    readPort s 0x00C = s.frame.csumCalc.setWidth 32 ∧ readPort s 0x00D = s.record.kind.code.setWidth 32 ∧
    readPort s 0x010 = s.record.bi.totalV.setWidth 32 ∧ readPort s 0x011 = s.record.bi.current.setWidth 32 ∧
    readPort s 0x012 = s.record.bi.remainCap.setWidth 32 ∧ readPort s 0x013 = s.record.bi.nominalCap.setWidth 32 ∧
    readPort s 0x014 = s.record.bi.cycles.setWidth 32 ∧ readPort s 0x015 = s.record.bi.date.setWidth 32 ∧
    readPort s 0x016 = s.record.bi.balance ∧ readPort s 0x017 = s.record.bi.protect.setWidth 32 ∧
    readPort s 0x018 = s.record.bi.swVer.setWidth 32 ∧ readPort s 0x019 = s.record.bi.soc.setWidth 32 ∧
    readPort s 0x01A = s.record.bi.fet.setWidth 32 ∧ readPort s 0x01B = s.record.bi.cells.setWidth 32 ∧
    readPort s 0x01C = s.record.bi.ntcCount.setWidth 32 ∧ readPort s 0x01D = s.record.bi.tempCount.setWidth 32 ∧
    (∀ i : Fin 3, readPort s (0x01E + BitVec.ofNat 12 i.val) = s.record.bi.temp[i].setWidth 32) ∧
    (∀ j : Fin 9, readPort s (0x021 + BitVec.ofNat 12 j.val) = s.record.bi.trailer[j].setWidth 32) ∧
    readPort s 0x02A = s.record.bi.csum.setWidth 32 ∧ readPort s 0x030 = s.record.cv.count.setWidth 32 ∧
    (∀ i : Fin 6, readPort s (0x031 + BitVec.ofNat 12 i.val) = s.record.cv.cell[i].setWidth 32) ∧
    readPort s 0x037 = s.record.cv.csum.setWidth 32 ∧
    (∀ i : Fin 262, readPort s (0x100 + BitVec.ofNat 12 i.val) = (capByte s i.val).setWidth 32) ∧
    (∀ a : BitVec 12,
      (0x00E ≤ a.toNat ∧ a.toNat ≤ 0x00F) ∨ (0x02B ≤ a.toNat ∧ a.toNat ≤ 0x02F) ∨
      (0x038 ≤ a.toNat ∧ a.toNat ≤ 0x0FF) ∨ 0x206 ≤ a.toNat →
      readPort s a = 0)

/-- R112 to R115: the codes of the coded registers; no two result kinds share one (R263), and the codes that R113 and R114 call
never written are no kind's. -/
def Obligations.CodedRegistersHaveTheirCodes : Prop :=
  ([.none, .basic, .cells, .unknown] : List RType).map RType.code = [0, 1, 2, 3] ∧
  ([.none, .basic, .cells] : List RecKind).map RecKind.code = [0, 1, 2] ∧
  ([.ok, .incompleteFrame, .invalidStartByte, .invalidEndByte, .lengthMismatch, .deviceStatusError,
    .unknownResponseType, .checksumMismatch, .unsupportedType, .recordSizeMismatch, .notValidated,
    .illegalCommand] : List ResultKind).map ResultKind.code
      = [0x00, 0x01, 0x02, 0x03, 0x04, 0x05, 0x06, 0x07, 0x08, 0x09, 0x0A, 0x0B] ∧
  ([.none, .validate, .decode, .command] : List Stage).map Stage.code = [0, 1, 2, 3] ∧
  (∀ k l : ResultKind, k.code = l.code → k = l) ∧ (∀ k : ResultKind, k.code.toNat ≤ 0x0B) ∧
  ∀ k : RecKind, k.code ≠ 3

/-! ### Byte assembly and the checksum -/

/-- R82, R83, R85: the big-endian assembly of two and of four capture bytes, as numbers, and the raw pair as each byte order
reads it; which of the two the block shows is the open parameter (log 1). -/
def Obligations.ByteAssemblyFunctions : Prop :=
  ∀ (s : State) (i : Nat),
    (be16 s i).toNat = (capByte s i).toNat * 256 + (capByte s (i + 1)).toNat ∧
    (be32 s i).toNat = (((capByte s i).toNat * 256 + (capByte s (i + 1)).toNat) * 256 + (capByte s (i + 2)).toNat) * 256
      + (capByte s (i + 3)).toNat ∧
    native16 s i = (match Config.hostByteOrder with
      | .little => capByte s (i + 1) ++ capByte s i
      | .big => be16 s i)

/-- R84: the signed reading of a 16-bit pattern is its two's-complement value, between -32768 and 32767. -/
def Obligations.SignedReadingIsTwosComplement : Prop :=
  ∀ v : Half, s16 v = v.toInt ∧ -32768 ≤ s16 v ∧ s16 v ≤ 32767

/-- R230: the checksum is the 16-bit negation of the sum of all covered bytes, for any payload. -/
def Obligations.ChecksumNegatesTheByteSum : Prop :=
  ∀ (st n : Byte) (p : List Byte),
    (checksum st n p).toNat = (65536 - (st.toNat + n.toNat + (p.map BitVec.toNat).sum) % 65536) % 65536

/-- R232: the negation is `0 - sum`; a sum of 0 gives 0, any other gives `65536 - sum`; sum and checksum add to 0. -/
def Obligations.ChecksumCancelsTheSum : Prop :=
  (∀ sum : Half, ~~~ sum + 1 = 0 - sum) ∧
  ∀ (st n : Byte) (p : List Byte),
    checksum st n p = 0 - checksumSum st n p ∧ checksumSum st n p + checksum st n p = 0 ∧
    (checksum st n p).toNat =
      (if checksumSum st n p = 0 then 0 else 65536 - (checksumSum st n p).toNat)

/-- R233: for a payload of at most 255 bytes the sum never wraps: the accumulator holds the exact sum. -/
def Obligations.ChecksumSumNeverWrapsInAFrame : Prop :=
  ∀ (st n : Byte) (p : List Byte), p.length ≤ 255 →
    (checksumSum st n p).toNat = st.toNat + n.toNat + (p.map BitVec.toNat).sum

/-- R234: flipping one bit of one covered byte changes the checksum: a payload byte, the status or the length byte. -/
def Obligations.ChecksumDetectsEverySingleBitFlip : Prop :=
  ∀ (st n : Byte) (p q : List Byte) (b : Byte) (k : Nat), k < 8 →
    checksum st n (p ++ (b ^^^ (1 <<< k)) :: q) ≠ checksum st n (p ++ b :: q) ∧
    checksum (st ^^^ (1 <<< k)) n p ≠ checksum st n p ∧
    checksum st (n ^^^ (1 <<< k)) p ≠ checksum st n p

/-- R235: the checksum depends on the sum of the covered bytes alone, the status and the length byte among them: two frames
whose covered bytes are permutations of each other have the same one, and so have two whose byte sums are equal modulo
65536. -/
def Obligations.ChecksumIgnoresTheOrderOfBytes : Prop :=
  ∀ (st n st' n' : Byte) (p q : List Byte),
    ((st :: n :: p).Perm (st' :: n' :: q) → checksum st n p = checksum st' n' q) ∧
    (((st :: n :: p).map BitVec.toNat).sum % 65536 = ((st' :: n' :: q).map BitVec.toNat).sum % 65536 →
      checksum st n p = checksum st' n' q)

/-- R108, R109: bytes 4 and 5 of a request of any type 0x01 to 0xFF are the checksum of bytes 2 and 3, high byte 0xFF and
low byte `0x100 - type`; the two templates. -/
def Obligations.RequestFramesCarryTheirChecksum : Prop :=
  (∀ ty : Byte, ty ≠ 0 →
    wire16 (checksum ty 0 []) = [0xFF, BitVec.ofNat 8 (0x100 - ty.toNat)] ∧
    ((requestFrame ty).drop 4).take 2 = wire16 (checksum ty 0 [])) ∧
  requestFrame 0x03 = [0xDD, 0xA5, 0x03, 0x00, 0xFF, 0xFD, 0x77] ∧
  requestFrame 0x04 = [0xDD, 0xA5, 0x04, 0x00, 0xFF, 0xFC, 0x77]

/-! ### NOP, CLEAR, PUSH -/

/-- R140: NOP, word 0x0000, changes nothing. -/
def Obligations.NopChangesNothing : Prop :=
  encode .nop = 0x0000 ∧ ∀ s : State, exec .nop s = .next s

/-- R141: CLEAR, word 0x0100: the count, LAST_BYTE, the result, frame and record groups; CAP_BUF keeps its bytes. From a
state whose host side is that of reset, only CAP_BUF then differs from reset (R292). -/
def Obligations.ClearResetsAllButTheCaptureBytes : Prop :=
  encode .clear = 0x0100 ∧
  ∀ s : State,
    exec .clear s = .next { s with
      capture := { buf := s.capture.buf, len := 0, last := 0 }
      result := ⟨.ok, .none, 0, 0⟩
      frame := ⟨false, .none, 0, 0, 0, 0, 0⟩
      record := .cleared } ∧
    exec .clear s = .next { State.reset with
      capture := { State.reset.capture with buf := s.capture.buf }
      host := s.host }

/-- R142: PUSH b, word 0x0200 | b. The byte goes to index CAP_LEN when that is below 262, every other index reads as
before; LAST_BYTE; the saturating count; FRAME_VALID and the record group; the result group and the other frame registers
are unchanged. -/
def Obligations.PushAppendsOneByte : Prop :=
  ∀ (b : Byte) (s : State),
    encode (.push b) = 0x0200 ||| b.setWidth 16 ∧
    ∃ t, exec (.push b) s = .next t ∧
      (∀ a, capByte t a = if a = s.capture.len.toNat ∧ s.capture.len.toNat < 262 then b else capByte s a) ∧
      t.capture.last = b ∧
      t.capture.len.toNat = (if s.capture.len.toNat < 0xFFFF then s.capture.len.toNat + 1 else 0xFFFF) ∧
      t.frame = { s.frame with valid := false } ∧ t.record = .cleared ∧ t.result = s.result ∧ t.host = s.host

/-- R88, R89: no command but PUSH changes a capture byte, CAP_LEN or LAST_BYTE (CLEAR zeroes the two registers, R141), PUSH
changes at most the byte at index CAP_LEN, and no command changes the host's side. -/
def Obligations.OnlyPushWritesCaptureBytes : Prop :=
  ∀ (i : Instr) (s t : State), exec i s = .next t →
    (∀ a, (∀ b, i = .push b → ¬(s.capture.len.toNat < 262 ∧ a = s.capture.len.toNat)) → capByte t a = capByte s a) ∧
    ((∀ b, i ≠ .push b) → t.capture.buf = s.capture.buf ∧
      (i ≠ .clear → t.capture.len = s.capture.len ∧ t.capture.last = s.capture.last)) ∧
    t.host = s.host

/-- R34: after CLEAR, or after a reset, and then any commands that are not CLEAR, the capture group holds exactly the bytes
those commands pushed. -/
def Obligations.CaptureHoldsThePushedBytes : Prop :=
  ∀ (s : State) (cmds : List Instr), (∀ i ∈ cmds, i ≠ .clear) →
    ∀ start ∈ ([execAll (.clear :: cmds) s, execAll cmds (hardReset s)] : List _),
      ∃ t, start = .next t ∧
        t.capture.len.toNat = min (pushedBytes cmds).length 0xFFFF ∧
        (∀ j b, j < 262 → (pushedBytes cmds)[j]? = some b → capByte t j = b) ∧
        (∀ b, (pushedBytes cmds).getLast? = some b → t.capture.last = b)

/-! ### VALIDATE -/

/-- R161: step 1. -/
def Obligations.ValidateRejectsAShortCapture : Prop :=
  ∀ s : State, s.capture.len.toNat < 7 →
    exec .validate s = .next { s with
      frame := .cleared, record := .cleared, result := ⟨.incompleteFrame, .validate, s.capture.len, 7⟩ }

/-- R162: step 2; on a sound capture of at least 7 bytes, byte 0 was written. -/
def Obligations.ValidateRejectsAWrongStartByte : Prop :=
  ∀ s : State, 7 ≤ s.capture.len.toNat →
    (capByte s 0 ≠ 0xDD →
      exec .validate s = .next { s with
        frame := .cleared, record := .cleared,
        result := ⟨.invalidStartByte, .validate, (capByte s 0).setWidth 16, 0xDD⟩ }) ∧
    (CaptureInv s → ∃ b, s.capture.buf.read 0 = some b ∧ capByte s 0 = b)

/-- R163: step 3, on LAST_BYTE, before any length check; on a sound capture of at most 262 bytes LAST_BYTE is the byte at
index CAP_LEN - 1, and where step 5 passes that is index 6 + N. -/
def Obligations.ValidateRejectsAWrongEndByte : Prop :=
  ∀ s : State,
    (7 ≤ s.capture.len.toNat → capByte s 0 = 0xDD → s.capture.last ≠ 0x77 →
      exec .validate s = .next { s with
        frame := .cleared, record := .cleared,
        result := ⟨.invalidEndByte, .validate, s.capture.last.setWidth 16, 0x77⟩ }) ∧
    (CaptureInv s → 7 ≤ s.capture.len.toNat → s.capture.len.toNat ≤ 262 →
      s.capture.last = capByte s (s.capture.len.toNat - 1) ∧
      (s.capture.len.toNat = 4 + (capByte s 3).toNat + 2 + 1 → s.capture.last = capByte s (6 + (capByte s 3).toNat)))

/-- R165 (with the latches of R164): step 5. -/
def Obligations.ValidateRejectsAWrongLength : Prop :=
  ∀ s : State, 7 ≤ s.capture.len.toNat → capByte s 0 = 0xDD → s.capture.last = 0x77 →
    s.capture.len.toNat ≠ 4 + (capByte s 3).toNat + 2 + 1 →
    exec .validate s = .next { s with
      frame := ⟨false, .none, capByte s 1, capByte s 2, capByte s 3, 0, 0⟩, record := .cleared,
      result := ⟨.lengthMismatch, .validate, s.capture.len, BitVec.ofNat 16 (7 + (capByte s 3).toNat)⟩ }

/-- R166: step 6, after the length check: a capture with both defects reports LengthMismatch. -/
def Obligations.ValidateReportsADeviceFault : Prop :=
  ∀ s : State, 7 ≤ s.capture.len.toNat → capByte s 0 = 0xDD → s.capture.last = 0x77 → capByte s 2 ≠ 0x00 →
    (s.capture.len.toNat = 4 + (capByte s 3).toNat + 2 + 1 →
      exec .validate s = .next { s with
        frame := ⟨false, .none, capByte s 1, capByte s 2, capByte s 3, 0, 0⟩, record := .cleared,
        result := ⟨.deviceStatusError, .validate, (capByte s 2).setWidth 16, 0⟩ }) ∧
    (s.capture.len.toNat ≠ 4 + (capByte s 3).toNat + 2 + 1 →
      ∃ t, exec .validate s = .next t ∧ t.result.kind = .lengthMismatch)

/-- R167: step 7. RTYPE = UNKNOWN is returned, the checksum is not checked, and DECODE then answers NotValidated. -/
def Obligations.ValidateRejectsAnUnknownType : Prop :=
  ∀ s : State, 7 ≤ s.capture.len.toNat → capByte s 0 = 0xDD → s.capture.last = 0x77 →
    s.capture.len.toNat = 4 + (capByte s 3).toNat + 2 + 1 → capByte s 2 = 0x00 →
    capByte s 1 ≠ 0x03 → capByte s 1 ≠ 0x04 →
    ∃ t, exec .validate s = .next t ∧
      t = { s with
        frame := ⟨false, .unknown, capByte s 1, capByte s 2, capByte s 3, 0, 0⟩, record := .cleared,
        result := ⟨.unknownResponseType, .validate, (capByte s 1).setWidth 16, 0⟩ } ∧
      exec .decodeBasic t = .next (t.raise .decode .notValidated 0 0) ∧
      exec .decodeCells t = .next (t.raise .decode .notValidated 0 0)

/-- R168, R169: step 8 and the success. Both checksums are latched whether or not they agree. -/
def Obligations.ValidateComparesTheChecksums : Prop :=
  ∀ s : State, 7 ≤ s.capture.len.toNat → capByte s 0 = 0xDD → s.capture.last = 0x77 →
    s.capture.len.toNat = 4 + (capByte s 3).toNat + 2 + 1 → capByte s 2 = 0x00 →
    (capByte s 1 = 0x03 ∨ capByte s 1 = 0x04) →
    let n := (capByte s 3).toNat
    let computed := checksum (capByte s 2) (capByte s 3) (memRead s 4 n)
    let rx := capByte s (4 + n) ++ capByte s (5 + n)
    let ty := if capByte s 1 = 0x03 then RType.basic else RType.cells
    exec .validate s = .next (if rx = computed then
      { s with
        frame := ⟨true, ty, capByte s 1, capByte s 2, capByte s 3, rx, computed⟩, record := .cleared,
        result := ⟨.ok, .validate, 0, 0⟩ }
    else
      { s with
        frame := ⟨false, ty, capByte s 1, capByte s 2, capByte s 3, rx, computed⟩, record := .cleared,
        result := ⟨.checksumMismatch, .validate, rx, computed⟩ })

/-- R170, R171: on every capture VALIDATE reports the kind of the first failing step of the list of steps, and leaves the
frame group of the table's row for that outcome. -/
def Obligations.ValidateReportsTheFirstFailingStep : Prop :=
  ∀ s : State, ∃ t, exec .validate s = .next t ∧
    t.result.kind = firstFailure validationSteps s ∧ t.result.stage = .validate ∧
    t.frame = frameAfter s (firstFailure validationSteps s) ∧
    t.capture = s.capture ∧ t.record = .cleared ∧ t.host = s.host

/-- R173, R190: VALIDATE and DECODE never mutate the capture, and running one of them twice in a row gives the same state
both times. -/
def Obligations.RepeatedCommandsGiveTheSameState : Prop :=
  ∀ (s t : State) (i : Instr), i ∈ [Instr.validate, .decodeBasic, .decodeCells, .decodeUnknown] →
    exec i s = .next t → t.capture = s.capture ∧ exec i t = .next t

/-- R143: a capture of more than 262 bytes never passes: it fails at step 2, 3 or 5. -/
def Obligations.OverlongCaptureNeverValidates : Prop :=
  ∀ s : State, 262 < s.capture.len.toNat →
    ∃ t, exec .validate s = .next t ∧ t.frame.valid = false ∧
      (t.result.kind = .invalidStartByte ∨ t.result.kind = .invalidEndByte ∨ t.result.kind = .lengthMismatch)

/-- R176: of two captures that differ in one bit of one payload byte, when one is a valid frame the other answers
ChecksumMismatch. -/
def Obligations.ValidateDetectsEveryPayloadBitFlip : Prop :=
  ∀ (s t : State) (i k : Nat), ValidCapture s → 4 ≤ i → i < 4 + (capByte s 3).toNat → k < 8 →
    t.capture.len = s.capture.len → t.capture.last = s.capture.last →
    capByte t i = capByte s i ^^^ (1 <<< k) → (∀ j, j ≠ i → capByte t j = capByte s j) →
    ∃ u, exec .validate t = .next u ∧ u.result.kind = .checksumMismatch ∧ u.result.stage = .validate ∧
      u.frame.valid = false

/-- R177: a request frame of any type is no valid response: DeviceStatusError with the type as the status byte. -/
def Obligations.RequestFrameIsNoResponse : Prop :=
  ∀ (s : State) (ty : Byte), ty ≠ 0 → HoldsFrame s (requestFrame ty) →
    exec .validate s = .next { s with
      frame := ⟨false, .none, 0xA5, ty, 0x00, 0, 0⟩, record := .cleared,
      result := ⟨.deviceStatusError, .validate, ty.setWidth 16, 0⟩ }

/-! ### DECODE -/

/-- R191: DECODE UNKNOWN, in every state, validated or not; no byte of the capture has a part in it. -/
def Obligations.DecodeUnknownIsUnsupported : Prop :=
  ∀ s : State, exec .decodeUnknown s = .next { s with
    record := .cleared, result := ⟨.unsupportedType, .decode, 0x03, 0⟩ }

/-- R192: DECODE without a validated frame. -/
def Obligations.DecodeNeedsAValidatedFrame : Prop :=
  ∀ s : State, s.frame.valid = false →
    exec .decodeBasic s = .next { s with record := .cleared, result := ⟨.notValidated, .decode, 0, 0⟩ } ∧
    exec .decodeCells s = .next { s with record := .cleared, result := ⟨.notValidated, .decode, 0, 0⟩ }

/-- R193: DECODE BASIC of a payload that is not 38 bytes. -/
def Obligations.DecodeBasicRejectsAWrongSize : Prop :=
  ∀ s : State, s.frame.valid = true → s.frame.payLen.toNat ≠ 38 →
    exec .decodeBasic s = .next { s with
      record := .cleared, result := ⟨.recordSizeMismatch, .decode, s.frame.payLen.setWidth 16, 38⟩ }

/-- R194: DECODE CELLS of an odd payload or one of more than 12 bytes; a payload of 0 bytes gives a record of 0 cells. -/
def Obligations.DecodeCellsRejectsAWrongSize : Prop :=
  ∀ s : State, s.frame.valid = true →
    (s.frame.payLen.toNat % 2 = 1 ∨ 12 < s.frame.payLen.toNat →
      exec .decodeCells s = .next { s with
        record := .cleared,
        result := ⟨.recordSizeMismatch, .decode, s.frame.payLen.setWidth 16,
          BitVec.ofNat 16 (min s.frame.payLen.toNat 12) &&& ~~~1⟩ }) ∧
    (s.frame.payLen.toNat = 0 →
      ∃ t, exec .decodeCells s = .next t ∧ t.result.kind = .ok ∧ t.record.kind = .cells ∧ t.record.cv.count = 0)

/-- R195, R200, R201, R203, R204, R205: DECODE BASIC of a validated frame of 38 payload bytes whose checksum field passes
the second gate: every BasicInfo register from its bytes of the capture. A slot at or beyond BI_TEMP_COUNT holds the raw
bytes in host order (no other statement rests on it, U3). -/
def Obligations.DecodeBasicLoadsEveryField : Prop :=
  ∀ s : State, s.frame.valid = true → s.frame.payLen.toNat = 38 →
    capByte s 42 ++ capByte s 43 = s.frame.csumCalc →
    ∃ t, exec .decodeBasic s = .next t ∧
      t.result = ⟨.ok, .decode, 0, 0⟩ ∧ t.frame = s.frame ∧ t.capture = s.capture ∧ t.host = s.host ∧
      t.record.kind = .basic ∧ t.record.cv = .zero ∧
      t.record.bi.totalV = capByte s 4 ++ capByte s 5 ∧ t.record.bi.current = capByte s 6 ++ capByte s 7 ∧
      t.record.bi.remainCap = capByte s 8 ++ capByte s 9 ∧ t.record.bi.nominalCap = capByte s 10 ++ capByte s 11 ∧
      t.record.bi.cycles = capByte s 12 ++ capByte s 13 ∧ t.record.bi.date = capByte s 14 ++ capByte s 15 ∧
      t.record.bi.balance = ((capByte s 16 ++ capByte s 17) ++ capByte s 18) ++ capByte s 19 ∧
      t.record.bi.protect = capByte s 20 ++ capByte s 21 ∧ t.record.bi.swVer = capByte s 22 ∧
      t.record.bi.soc = capByte s 23 ∧ t.record.bi.fet = capByte s 24 ∧ t.record.bi.cells = capByte s 25 ∧
      t.record.bi.ntcCount = capByte s 26 ∧ t.record.bi.tempCount.toNat = min (capByte s 26).toNat 3 ∧
      (∀ i : Fin 3, t.record.bi.temp[i] =
        if i.val < min (capByte s 26).toNat 3 then capByte s (27 + 2 * i.val) ++ capByte s (28 + 2 * i.val)
        else native16 s (27 + 2 * i.val)) ∧
      (∀ j : Fin 9, t.record.bi.trailer[j] = capByte s (33 + j.val)) ∧
      t.record.bi.csum = capByte s 42 ++ capByte s 43

/-- R208: the second integrity gate of DECODE BASIC: on a difference the record group is cleared and the kind is
ChecksumMismatch at stage DECODE. It needs a state that no run reaches (R209): the statement is about the check itself. -/
def Obligations.SecondGateRejectsADifferentChecksum : Prop :=
  ∀ s : State, s.frame.valid = true → s.frame.payLen.toNat = 38 →
    capByte s 42 ++ capByte s 43 ≠ s.frame.csumCalc →
    exec .decodeBasic s = .next { s with
      record := .cleared,
      result := ⟨.checksumMismatch, .decode, capByte s 42 ++ capByte s 43, s.frame.csumCalc⟩ }

/-- R209, R212: from a state that meets the invariant the second gate never fails (no command answers ChecksumMismatch at
stage DECODE), and CV_CSUM equals CSUM_CALC whenever DECODE CELLS succeeds. -/
def Obligations.RecordChecksumsAgreeWithTheValidator : Prop :=
  ∀ s t : State, Inv s →
    (∀ i, exec i s = .next t → ¬(t.result.kind = .checksumMismatch ∧ t.result.stage = .decode)) ∧
    (exec .decodeCells s = .next t → t.result.kind = .ok → t.record.cv.csum = t.frame.csumCalc)

/-- R210, R211 (and R212's first sentence): DECODE CELLS of a validated frame with an even payload of at most 12 bytes:
every CellVoltage register. An entry at or beyond CV_COUNT is written 0x0000 (no other statement rests on it, U4). -/
def Obligations.DecodeCellsLoadsEveryCell : Prop :=
  ∀ s : State, s.frame.valid = true → s.frame.payLen.toNat % 2 = 0 → s.frame.payLen.toNat ≤ 12 →
    ∃ t, exec .decodeCells s = .next t ∧
      t.result = ⟨.ok, .decode, 0, 0⟩ ∧ t.frame = s.frame ∧ t.capture = s.capture ∧ t.host = s.host ∧
      t.record.kind = .cells ∧ t.record.bi = .zero ∧
      t.record.cv.count.toNat = s.frame.payLen.toNat / 2 ∧
      (∀ i : Fin 6, t.record.cv.cell[i] =
        if i.val < s.frame.payLen.toNat / 2 then capByte s (4 + 2 * i.val) ++ capByte s (5 + 2 * i.val)
        else 0x0000) ∧
      t.record.cv.csum = capByte s (4 + s.frame.payLen.toNat) ++ capByte s (5 + s.frame.payLen.toNat)

/-- R213: after any DECODE or PARSE either the result is OK and REC_KIND names a record, or every record register is 0. -/
def Obligations.DecodingIsAllOrNothing : Prop :=
  ∀ (s t : State) (i : Instr), i ∈ [Instr.decodeBasic, .decodeCells, .decodeUnknown, .parse] → exec i s = .next t →
    (t.result.kind = .ok ∧ t.result.stage = .decode ∧ (t.record.kind = .basic ∨ t.record.kind = .cells)) ∨
    (t.result.kind ≠ .ok ∧ t.record = .cleared)

/-- R219: DECODE uses its operand, not RTYPE: another RTYPE changes nothing but RTYPE. -/
def Obligations.DecodeIgnoresTheClassification : Prop :=
  ∀ (s t : State) (r : RType) (i : Instr), i ∈ [Instr.decodeBasic, .decodeCells, .decodeUnknown] →
    exec i s = .next t →
    exec i { s with frame := { s.frame with rtype := r } } = .next { t with frame := { t.frame with rtype := r } }

/-! ### PARSE -/

/-- R246: the state after PARSE is the state after VALIDATE and, when its result is OK, DECODE BASIC or DECODE CELLS by
RTYPE. -/
def Obligations.ParseIsValidateThenDecode : Prop :=
  ∀ s : State, ∃ t, exec .validate s = .next t ∧
    (t.result.kind = .ok → t.frame.rtype = .basic → exec .parse s = exec .decodeBasic t) ∧
    (t.result.kind = .ok → t.frame.rtype = .cells → exec .parse s = exec .decodeCells t) ∧
    (t.result.kind = .ok → t.frame.rtype = .basic ∨ t.frame.rtype = .cells) ∧
    (t.result.kind ≠ .ok → exec .parse s = .next t)

/-- R245, R247: PARSE never answers UnsupportedType or NotValidated; its stage is VALIDATE exactly when the frame was
rejected, and DECODE otherwise. -/
def Obligations.ParseStageTellsTheComponent : Prop :=
  ∀ s t : State, exec .parse s = .next t →
    t.result.kind ≠ .unsupportedType ∧ t.result.kind ≠ .notValidated ∧
    (firstFailure validationSteps s ≠ .ok → t.result.stage = .validate ∧
      t.result.kind = firstFailure validationSteps s ∧ t.frame.valid = false) ∧
    (firstFailure validationSteps s = .ok → t.result.stage = .decode ∧ t.frame.valid = true)

/-- R248: PARSE of every valid BasicInfo frame, and of every valid CellVoltages frame of at most 6 cells, gives OK and every
numeric field equal to the value the frame encodes. Only the temperature slots below BI_TEMP_COUNT and the cells below
CV_COUNT are claimed (R306). -/
def Obligations.ParseRoundTripsEveryValidFrame : Prop :=
  (∀ (s : State) (r : BasicInfo), HoldsFrame s (responseFrame 0x03 0x00 (basicPayload r)) →
    ∃ t, exec .parse s = .next t ∧ t.result = ⟨.ok, .decode, 0, 0⟩ ∧ t.frame.valid = true ∧ t.frame.rtype = .basic ∧
      t.capture = s.capture ∧ t.host = s.host ∧ t.record.kind = .basic ∧
      t.record.bi.totalV = r.totalV ∧ t.record.bi.current = r.current ∧ t.record.bi.remainCap = r.remainCap ∧
      t.record.bi.nominalCap = r.nominalCap ∧ t.record.bi.cycles = r.cycles ∧ t.record.bi.date = r.date ∧
      t.record.bi.balance = r.balance ∧ t.record.bi.protect = r.protect ∧ t.record.bi.swVer = r.swVer ∧
      t.record.bi.soc = r.soc ∧ t.record.bi.fet = r.fet ∧ t.record.bi.cells = r.cells ∧
      t.record.bi.ntcCount = r.ntcCount ∧
      (∀ i : Fin 3, i.val < r.ntcCount.toNat → t.record.bi.temp[i] = r.temp[i]) ∧
      t.record.bi.trailer = r.trailer ∧
      t.record.bi.csum = checksum 0x00 38 (basicPayload r)) ∧
  (∀ (s : State) (vs : List Half), vs.length ≤ 6 → HoldsFrame s (responseFrame 0x04 0x00 (cellPayload vs)) →
    ∃ t, exec .parse s = .next t ∧ t.result = ⟨.ok, .decode, 0, 0⟩ ∧ t.frame.valid = true ∧ t.frame.rtype = .cells ∧
      t.capture = s.capture ∧ t.host = s.host ∧ t.record.kind = .cells ∧
      t.record.cv.count.toNat = vs.length ∧
      (∀ (i : Fin 6) (v : Half), vs[i.val]? = some v → t.record.cv.cell[i] = v) ∧
      t.record.cv.csum = checksum 0x00 (BitVec.ofNat 8 (2 * vs.length)) (cellPayload vs))

/-! ### The whole machine -/

/-- R261: NOP and PUSH write no result register; CLEAR writes 0, NONE, 0, 0; VALIDATE, DECODE and PARSE write all four
(what they held before has no part in the next state), and so does an illegal word. -/
def Obligations.WhichCommandsWriteTheResult : Prop :=
  (∀ (s t : State) (b : Byte), exec .nop s = .next t ∨ exec (.push b) s = .next t → t.result = s.result) ∧
  (∀ s t : State, exec .clear s = .next t → t.result = ⟨.ok, .none, 0, 0⟩) ∧
  (∀ (s : State) (r : ResultRegs) (i : Instr),
    i ∈ [Instr.validate, .decodeBasic, .decodeCells, .decodeUnknown, .parse] →
    exec i { s with result := r } = exec i s) ∧
  (∀ (s t : State) (w : Half), (∀ i, decode w ≠ .ok i) → runWord w s = .next t →
    t.result = ⟨.illegalCommand, .command, w, 0⟩)

/-- The reset state meets the invariant (R57, R34, R39, R48, R260). -/
def Obligations.ResetMeetsTheInvariant : Prop := Inv State.reset

/-- Every step keeps the invariant: the capture list stays canonical and holds every counted byte (R31, R34); FRAME_VALID
= 1 only while the capture is a valid frame that the frame group describes (R39, R171); REC_KIND names a complete record of
that frame or every record register is 0 (R48, R213); the kind fits its stage (R260, R209). -/
def Obligations.StepKeepsTheInvariant : Prop :=
  ∀ s t : State, Inv s → step s = .next t → Inv t

/-- R172, R292: no command's outcome depends on a CAP_BUF byte at or beyond `min(CAP_LEN, 262)`: two sound states that
differ only in such bytes take steps to states that differ only in such bytes. Only a read of such a byte through the
window of R53 tells them apart. -/
def Obligations.StaleCaptureBytesAreNeverUsed : Prop :=
  ∀ s t s' : State, Inv s → Inv t → SameButStale s t → readsStale s = false → step s = .next s' →
    ∃ t', step t = .next t' ∧ SameButStale s' t'

/-! ### What the fields mean -/

/-- R214: the three fields of a packed date are the source's extraction. -/
def Obligations.DateFieldsAreTheSourceExtraction : Prop :=
  (∀ raw : Half, dateYear raw = 2000 + (raw >>> 9).toNat ∧ dateMonth raw = ((raw >>> 5) &&& 0xF).toNat ∧
    dateDay raw = (raw &&& 0x1F).toNat) ∧
  dateYear 0x4A21 = 2037 ∧ dateMonth 0x4A21 = 1 ∧ dateDay 0x4A21 = 1
end

