-- ==== Sys2Proof/Laws/State.lean ====
section
/-! SUPPORT. Each update of the state, group by group: what it writes and what it leaves. True by rfl, so that no later
proof unfolds a record update. -/

namespace Sys2Proof.Machine

/-! ### memWrite -/

@[simp] theorem memWrite_capture (s : State) (i : Nat) (v : Byte) :
    (memWrite s i v).capture = { s.capture with buf := s.capture.buf.write i v } := rfl

@[simp] theorem memWrite_result (s : State) (i : Nat) (v : Byte) :
    (memWrite s i v).result = s.result := rfl

@[simp] theorem memWrite_frame (s : State) (i : Nat) (v : Byte) :
    (memWrite s i v).frame = s.frame := rfl

@[simp] theorem memWrite_record (s : State) (i : Nat) (v : Byte) :
    (memWrite s i v).record = s.record := rfl

@[simp] theorem memWrite_host (s : State) (i : Nat) (v : Byte) :
    (memWrite s i v).host = s.host := rfl

/-! ### raise -/

@[simp] theorem raise_capture (s : State) (st : Stage) (k : ResultKind) (o e : Half) :
    (s.raise st k o e).capture = s.capture := rfl

@[simp] theorem raise_result (s : State) (st : Stage) (k : ResultKind) (o e : Half) :
    (s.raise st k o e).result = ⟨k, st, o, e⟩ := rfl

@[simp] theorem raise_frame (s : State) (st : Stage) (k : ResultKind) (o e : Half) :
    (s.raise st k o e).frame = s.frame := rfl

@[simp] theorem raise_record (s : State) (st : Stage) (k : ResultKind) (o e : Half) :
    (s.raise st k o e).record = s.record := rfl

@[simp] theorem raise_host (s : State) (st : Stage) (k : ResultKind) (o e : Half) :
    (s.raise st k o e).host = s.host := rfl

/-! ### succeed -/

@[simp] theorem succeed_capture (s : State) (st : Stage) :
    (s.succeed st).capture = s.capture := rfl

@[simp] theorem succeed_result (s : State) (st : Stage) :
    (s.succeed st).result = ⟨.ok, st, 0, 0⟩ := rfl

@[simp] theorem succeed_frame (s : State) (st : Stage) :
    (s.succeed st).frame = s.frame := rfl

@[simp] theorem succeed_record (s : State) (st : Stage) :
    (s.succeed st).record = s.record := rfl

@[simp] theorem succeed_host (s : State) (st : Stage) :
    (s.succeed st).host = s.host := rfl

/-! ### raiseIllegal -/

@[simp] theorem raiseIllegal_capture (w : Half) (s : State) :
    (raiseIllegal w s).capture = s.capture := rfl

@[simp] theorem raiseIllegal_result (w : Half) (s : State) :
    (raiseIllegal w s).result = ⟨.illegalCommand, .command, w, 0⟩ := rfl

@[simp] theorem raiseIllegal_frame (w : Half) (s : State) :
    (raiseIllegal w s).frame = s.frame := rfl

@[simp] theorem raiseIllegal_record (w : Half) (s : State) :
    (raiseIllegal w s).record = s.record := rfl

@[simp] theorem raiseIllegal_host (w : Half) (s : State) :
    (raiseIllegal w s).host = s.host := rfl

/-! ### clearFrame -/

@[simp] theorem clearFrame_capture (s : State) :
    (clearFrame s).capture = s.capture := rfl

@[simp] theorem clearFrame_result (s : State) :
    (clearFrame s).result = s.result := rfl

@[simp] theorem clearFrame_frame (s : State) :
    (clearFrame s).frame = .cleared := rfl

@[simp] theorem clearFrame_record (s : State) :
    (clearFrame s).record = s.record := rfl

@[simp] theorem clearFrame_host (s : State) :
    (clearFrame s).host = s.host := rfl

/-! ### clearRecord -/

@[simp] theorem clearRecord_capture (s : State) :
    (clearRecord s).capture = s.capture := rfl

@[simp] theorem clearRecord_result (s : State) :
    (clearRecord s).result = s.result := rfl

@[simp] theorem clearRecord_frame (s : State) :
    (clearRecord s).frame = s.frame := rfl

@[simp] theorem clearRecord_record (s : State) :
    (clearRecord s).record = .cleared := rfl

@[simp] theorem clearRecord_host (s : State) :
    (clearRecord s).host = s.host := rfl

/-! ### setFrameValid -/

@[simp] theorem setFrameValid_capture (s : State) (v : Bool) :
    (setFrameValid s v).capture = s.capture := rfl

@[simp] theorem setFrameValid_result (s : State) (v : Bool) :
    (setFrameValid s v).result = s.result := rfl

@[simp] theorem setFrameValid_frame (s : State) (v : Bool) :
    (setFrameValid s v).frame = { s.frame with valid := v } := rfl

@[simp] theorem setFrameValid_record (s : State) (v : Bool) :
    (setFrameValid s v).record = s.record := rfl

@[simp] theorem setFrameValid_host (s : State) (v : Bool) :
    (setFrameValid s v).host = s.host := rfl

/-! ### latchHeader -/

@[simp] theorem latchHeader_capture (s : State) :
    (latchHeader s).capture = s.capture := rfl

@[simp] theorem latchHeader_result (s : State) :
    (latchHeader s).result = s.result := rfl

@[simp] theorem latchHeader_frame (s : State) :
    (latchHeader s).frame = { s.frame with typeCode := capByte s 1, devStatus := capByte s 2, payLen := capByte s 3 } := rfl

@[simp] theorem latchHeader_record (s : State) :
    (latchHeader s).record = s.record := rfl

@[simp] theorem latchHeader_host (s : State) :
    (latchHeader s).host = s.host := rfl

/-! ### latchType -/

@[simp] theorem latchType_capture (s : State) :
    (latchType s).capture = s.capture := rfl

@[simp] theorem latchType_result (s : State) :
    (latchType s).result = s.result := rfl

@[simp] theorem latchType_frame (s : State) :
    (latchType s).frame = { s.frame with rtype := classify s.frame.typeCode } := rfl

@[simp] theorem latchType_record (s : State) :
    (latchType s).record = s.record := rfl

@[simp] theorem latchType_host (s : State) :
    (latchType s).host = s.host := rfl

/-! ### latchChecksums -/

@[simp] theorem latchChecksums_capture (s : State) :
    (latchChecksums s).capture = s.capture := rfl

@[simp] theorem latchChecksums_result (s : State) :
    (latchChecksums s).result = s.result := rfl

@[simp] theorem latchChecksums_frame (s : State) :
    (latchChecksums s).frame = { s.frame with csumCalc := checksum (capByte s 2) (capByte s 3) (memRead s 4 s.frame.payLen.toNat), csumRx := be16 s (4 + s.frame.payLen.toNat) } := rfl

@[simp] theorem latchChecksums_record (s : State) :
    (latchChecksums s).record = s.record := rfl

@[simp] theorem latchChecksums_host (s : State) :
    (latchChecksums s).host = s.host := rfl

/-! ### setPending -/

@[simp] theorem setPending_capture (s : State) (p : List HostAction) :
    (setPending s p).capture = s.capture := rfl

@[simp] theorem setPending_result (s : State) (p : List HostAction) :
    (setPending s p).result = s.result := rfl

@[simp] theorem setPending_frame (s : State) (p : List HostAction) :
    (setPending s p).frame = s.frame := rfl

@[simp] theorem setPending_record (s : State) (p : List HostAction) :
    (setPending s p).record = s.record := rfl

@[simp] theorem setPending_host (s : State) (p : List HostAction) :
    (setPending s p).host = { s.host with pending := p } := rfl

/-! ### hostRead -/

@[simp] theorem hostRead_capture (a : BitVec 12) (s : State) :
    (hostRead a s).capture = s.capture := rfl

@[simp] theorem hostRead_result (a : BitVec 12) (s : State) :
    (hostRead a s).result = s.result := rfl

@[simp] theorem hostRead_frame (a : BitVec 12) (s : State) :
    (hostRead a s).frame = s.frame := rfl

@[simp] theorem hostRead_record (a : BitVec 12) (s : State) :
    (hostRead a s).record = s.record := rfl

@[simp] theorem hostRead_host (a : BitVec 12) (s : State) :
    (hostRead a s).host = { s.host with readData := readPort s a } := rfl

/-! ### hardReset -/

@[simp] theorem hardReset_capture (s : State) :
    (hardReset s).capture = ⟨[], 0, 0⟩ := rfl

@[simp] theorem hardReset_result (s : State) :
    (hardReset s).result = .cleared := rfl

@[simp] theorem hardReset_frame (s : State) :
    (hardReset s).frame = .cleared := rfl

@[simp] theorem hardReset_record (s : State) :
    (hardReset s).record = .cleared := rfl

@[simp] theorem hardReset_host (s : State) :
    (hardReset s).host = { s.host with resets := s.host.resets + 1 } := rfl

/-! ### What a capture byte reads after each update that leaves CAP_BUF -/

@[simp] theorem capByte_raise (s : State) (st : Stage) (k : ResultKind) (o e : Half) (j : Nat) :
    capByte (s.raise st k o e) j = capByte s j := rfl

@[simp] theorem capByte_succeed (s : State) (st : Stage) (j : Nat) :
    capByte (s.succeed st) j = capByte s j := rfl

@[simp] theorem capByte_raiseIllegal (w : Half) (s : State) (j : Nat) :
    capByte (raiseIllegal w s) j = capByte s j := rfl

@[simp] theorem capByte_clearFrame (s : State) (j : Nat) :
    capByte (clearFrame s) j = capByte s j := rfl

@[simp] theorem capByte_clearRecord (s : State) (j : Nat) :
    capByte (clearRecord s) j = capByte s j := rfl

@[simp] theorem capByte_setFrameValid (s : State) (v : Bool) (j : Nat) :
    capByte (setFrameValid s v) j = capByte s j := rfl

@[simp] theorem capByte_latchHeader (s : State) (j : Nat) :
    capByte (latchHeader s) j = capByte s j := rfl

@[simp] theorem capByte_latchType (s : State) (j : Nat) :
    capByte (latchType s) j = capByte s j := rfl

@[simp] theorem capByte_latchChecksums (s : State) (j : Nat) :
    capByte (latchChecksums s) j = capByte s j := rfl

@[simp] theorem capByte_setPending (s : State) (p : List HostAction) (j : Nat) :
    capByte (setPending s p) j = capByte s j := rfl

@[simp] theorem capByte_hostRead (a : BitVec 12) (s : State) (j : Nat) :
    capByte (hostRead a s) j = capByte s j := rfl

end Sys2Proof.Machine
end

