-- ==== Sys2Proof/Laws/Memory.lean ====
section
/-! SUPPORT. The capture bytes: what a read after a write gives, that a write keeps the canonical form, and that every read
of the capture depends on the bytes alone. -/

namespace Sys2Proof.Machine

theorem Memory.read_write_self (m : Memory) (i : Nat) (v : Byte) : (m.write i v).read i = some v := by
  induction m with
  | nil => simp [Memory.write, Memory.read]
  | cons c m ih =>
    obtain ⟨a, b⟩ := c
    simp only [Memory.write]
    split
    · simp [Memory.read]
    · split
      · rename_i h; simp [Memory.read, h]
      · rename_i h; simp [Memory.read, h, ih]

theorem Memory.read_write_other (m : Memory) {i j : Nat} (v : Byte) (h : j ≠ i) :
    (m.write i v).read j = m.read j := by
  induction m with
  | nil => simp [Memory.write, Memory.read, h]
  | cons c m ih =>
    obtain ⟨a, b⟩ := c
    simp only [Memory.write]
    split
    · simp [Memory.read, h]
    · split
      · rename_i h'; subst h'; simp [Memory.read, h]
      · simp [Memory.read, ih]

/-- What one write does to every read, at once. -/
theorem Memory.read_write (m : Memory) (i j : Nat) (v : Byte) :
    (m.write i v).read j = if j = i then some v else m.read j := by
  split
  · rename_i h; subst h; exact m.read_write_self j v
  · rename_i h; exact m.read_write_other v h

theorem Memory.wfAbove_write (m : Memory) {lo i : Nat} (v : Byte) (h : Memory.wfAbove lo m = true) (hlo : lo ≤ i)
    (hi : i < Config.capSize) : Memory.wfAbove lo (m.write i v) = true := by
  induction m generalizing lo with
  | nil => simp [Memory.write, Memory.wfAbove, hlo]; exact hi
  | cons c m ih =>
    obtain ⟨a, b⟩ := c
    simp only [Memory.wfAbove, Bool.and_eq_true, decide_eq_true_eq] at h
    obtain ⟨⟨h1, h2⟩, h3⟩ := h
    simp only [Memory.write]
    split
    · rename_i hia
      simp [Memory.wfAbove, hlo, h3]
      exact ⟨hi, hia, h2⟩
    · split
      · simp [Memory.wfAbove, h1, h3]; exact h2
      · rename_i h4 h5
        simp only [Memory.wfAbove, Bool.and_eq_true, decide_eq_true_eq]
        exact ⟨⟨h1, h2⟩, ih h3 (by omega)⟩

/-- A write inside the capture space keeps the canonical form. -/
theorem Memory.wf_write (m : Memory) {i : Nat} (v : Byte) (h : m.wf = true) (hi : i < Config.capSize) :
    (m.write i v).wf = true :=
  Memory.wfAbove_write m v h (Nat.zero_le i) hi

/-- The reset memory has the canonical form. -/
theorem reset_memory_wf : State.reset.capture.buf.wf = true := rfl

/-- What a write does to every capture byte (R8 `MemWrite`). -/
theorem capByte_memWrite (s : State) (i j : Nat) (v : Byte) :
    capByte (memWrite s i v) j = if j = i then v else capByte s j := by
  simp only [capByte, memWrite_capture, memWrite_host, Memory.read_write]
  split <;> rfl

/-- A byte that was written reads as written, whatever the free value is. -/
theorem capByte_of_read {s : State} {i : Nat} {b : Byte} (h : s.capture.buf.read i = some b) : capByte s i = b := by
  simp [capByte, h]

/-- A capture byte depends on CAP_BUF and the count of resets alone. -/
theorem capByte_congr {s t : State} (hb : t.capture.buf = s.capture.buf) (hr : t.host.resets = s.host.resets) (i : Nat) :
    capByte t i = capByte s i := by
  simp [capByte, hb, hr]

/-- A list of capture bytes depends on those bytes alone. -/
theorem memRead_congr {s t : State} {i n : Nat} (h : ∀ j, i ≤ j → j < i + n → capByte t j = capByte s j) :
    memRead t i n = memRead s i n := by
  induction n generalizing i with
  | zero => rfl
  | succ n ih =>
    simp only [memRead]
    rw [h i (le_refl i) (by omega), ih fun j h1 h2 => h j (by omega) (by omega)]

theorem memRead_length (s : State) (i n : Nat) : (memRead s i n).length = n := by
  induction n generalizing i with
  | zero => rfl
  | succ n ih => simp [memRead, ih]

theorem memRead_getElem? (s : State) (i n j : Nat) :
    (memRead s i n)[j]? = if j < n then some (capByte s (i + j)) else none := by
  induction n generalizing i j with
  | zero => simp [memRead]
  | succ n ih =>
    cases j with
    | zero => simp [memRead]
    | succ j => simp [memRead, ih, Nat.add_assoc, Nat.add_comm 1 j]

theorem be16_congr {s t : State} {i : Nat} (h0 : capByte t i = capByte s i)
    (h1 : capByte t (i + 1) = capByte s (i + 1)) : be16 t i = be16 s i := by
  simp [be16, h0, h1]

theorem native16_congr {s t : State} {i : Nat} (h0 : capByte t i = capByte s i)
    (h1 : capByte t (i + 1) = capByte s (i + 1)) : native16 t i = native16 s i := by
  simp [native16, h0, h1]

theorem tempSlot_congr {s t : State} {i : Nat} (hn : capByte t 26 = capByte s 26)
    (h0 : capByte t (27 + 2 * i) = capByte s (27 + 2 * i))
    (h1 : capByte t (27 + 2 * i + 1) = capByte s (27 + 2 * i + 1)) : tempSlot t i = tempSlot s i := by
  simp only [tempSlot, hn, be16_congr h0 h1, native16_congr h0 h1]

/-- The BasicInfo registers depend on the capture bytes 4 to 5 + N (at least 43) alone (R195, R207). -/
theorem basicRecord_congr {s t : State} {n : Nat} (hn : 38 ≤ n)
    (h : ∀ j, 4 ≤ j → j < 4 + n + 2 → capByte t j = capByte s j) :
    basicRecord t n = basicRecord s n := by
  have hb : ∀ j, 4 ≤ j → j + 1 < 4 + n + 2 → be16 t j = be16 s j := fun j h1 h2 =>
    be16_congr (h j h1 (by omega)) (h (j + 1) (by omega) h2)
  have ht : ∀ i, i < 3 → tempSlot t i = tempSlot s i := fun i hi =>
    tempSlot_congr (h 26 (by omega) (by omega)) (h _ (by omega) (by omega)) (h _ (by omega) (by omega))
  simp only [basicRecord, be32, hb _ (by omega : 4 ≤ 4) (by omega), hb 6 (by omega) (by omega),
    hb 8 (by omega) (by omega), hb 10 (by omega) (by omega), hb 12 (by omega) (by omega),
    hb 14 (by omega) (by omega), hb 20 (by omega) (by omega), hb (4 + n) (by omega) (by omega),
    h 16 (by omega) (by omega), h (16 + 1) (by omega) (by omega), h (16 + 2) (by omega) (by omega),
    h (16 + 3) (by omega) (by omega), h 22 (by omega) (by omega), h 23 (by omega) (by omega),
    h 24 (by omega) (by omega), h 25 (by omega) (by omega), h 26 (by omega) (by omega),
    ht 0 (by omega), ht 1 (by omega), ht 2 (by omega), h 33 (by omega) (by omega), h 34 (by omega) (by omega),
    h 35 (by omega) (by omega), h 36 (by omega) (by omega), h 37 (by omega) (by omega), h 38 (by omega) (by omega),
    h 39 (by omega) (by omega), h 40 (by omega) (by omega), h 41 (by omega) (by omega)]

/-- The CellVoltage registers depend on the capture bytes 4 to 5 + N alone (R210). -/
theorem cellRecord_congr {s t : State} {n : Nat} (h : ∀ j, 4 ≤ j → j < 4 + n + 2 → capByte t j = capByte s j) :
    cellRecord t n = cellRecord s n := by
  have hc : ∀ i, cellSlot t n i = cellSlot s n i := by
    intro i
    simp only [cellSlot]
    split
    · exact be16_congr (h _ (by omega) (by omega)) (h _ (by omega) (by omega))
    · rfl
  simp only [cellRecord, hc, be16_congr (h (4 + n) (by omega) (by omega)) (h (4 + n + 1) (by omega) (by omega))]

end Sys2Proof.Machine
end

