-- ==== Sys2Proof/Laws/Commands.lean ====
section
/-! SUPPORT. What each shared operation of the commands can do, said once: the validation sequence and the two record
decoders as case distinctions over the state they start from, with every record update already carried out. -/

namespace Sys2Proof.Machine

@[simp] theorem capByte_afterClears (s : State) (i : Nat) : capByte (clearRecord (clearFrame s)) i = capByte s i := rfl

theorem be16_eq (s : State) (i : Nat) : be16 s i = capByte s i ++ capByte s (i + 1) := rfl

/-- A list of capture bytes after an update that leaves CAP_BUF and the count of resets. -/
theorem memRead_of_capture {s t : State} (hb : t.capture = s.capture) (hr : t.host = s.host) (i n : Nat) :
    memRead t i n = memRead s i n :=
  memRead_congr fun j _ _ => capByte_congr (by rw [hb]) (by rw [hr]) j

theorem classify_basic {b : Byte} (h : b = 0x03) : classify b = .basic := by subst h; rfl

theorem classify_cells {b : Byte} (h : b = 0x04) : classify b = .cells := by subst h; rfl

theorem classify_unknown {b : Byte} (h3 : b ≠ 0x03) (h4 : b ≠ 0x04) : classify b = .unknown := by
  unfold classify
  rw [if_neg h3, if_neg h4]

theorem classify_ne_none (b : Byte) : classify b ≠ .none := by
  simp only [classify]
  split
  · simp
  · split <;> simp

theorem classify_eq_unknown_iff (b : Byte) : classify b = .unknown ↔ b ≠ 0x03 ∧ b ≠ 0x04 := by
  simp only [classify]
  split
  · simp_all
  · split <;> simp_all

/-- VALIDATE over the state it starts from: one line per outcome of R160. -/
theorem validate_eq (s : State) : validate s =
    if s.capture.len.toNat < 7 then
      { s with frame := .cleared, record := .cleared, result := ⟨.incompleteFrame, .validate, s.capture.len, 7⟩ }
    else if capByte s 0 ≠ 0xDD then
      { s with frame := .cleared, record := .cleared,
               result := ⟨.invalidStartByte, .validate, zext16 (capByte s 0), 0xDD⟩ }
    else if s.capture.last ≠ 0x77 then
      { s with frame := .cleared, record := .cleared,
               result := ⟨.invalidEndByte, .validate, zext16 s.capture.last, 0x77⟩ }
    else if s.capture.len.toNat ≠ frameLength (capByte s 3) then
      { s with frame := ⟨false, .none, capByte s 1, capByte s 2, capByte s 3, 0, 0⟩, record := .cleared,
               result := ⟨.lengthMismatch, .validate, s.capture.len, BitVec.ofNat 16 (frameLength (capByte s 3))⟩ }
    else if capByte s 2 ≠ 0x00 then
      { s with frame := ⟨false, .none, capByte s 1, capByte s 2, capByte s 3, 0, 0⟩, record := .cleared,
               result := ⟨.deviceStatusError, .validate, zext16 (capByte s 2), 0⟩ }
    else if classify (capByte s 1) = .unknown then
      { s with frame := ⟨false, .unknown, capByte s 1, capByte s 2, capByte s 3, 0, 0⟩, record := .cleared,
               result := ⟨.unknownResponseType, .validate, zext16 (capByte s 1), 0⟩ }
    else if transmittedChecksum s ≠ computedChecksum s then
      { s with frame := { latchedFrame s with valid := false }, record := .cleared,
               result := ⟨.checksumMismatch, .validate, transmittedChecksum s, computedChecksum s⟩ }
    else
      { s with frame := latchedFrame s, record := .cleared, result := ⟨.ok, .validate, 0, 0⟩ } := by
  have hm : latchChecksums (latchType (latchHeader (clearRecord (clearFrame s)))) =
      { s with frame := { latchedFrame s with valid := false }, record := .cleared } := by
    have hr : memRead (latchType (latchHeader (clearRecord (clearFrame s)))) 4 (capByte s 3).toNat =
        memRead s 4 (capByte s 3).toNat :=
      memRead_of_capture (s := s) (t := latchType (latchHeader (clearRecord (clearFrame s)))) rfl rfl _ _
    refine congrArg₂ (fun f r => State.mk s.capture s.result f r s.host) ?_ rfl
    exact congrArg (fun p => FrameRegs.mk false (classify (capByte s 1)) (capByte s 1) (capByte s 2) (capByte s 3)
      (be16 s (4 + (capByte s 3).toNat)) (checksum (capByte s 2) (capByte s 3) p)) hr
  by_cases h1 : s.capture.len.toNat < 7
  · rw [if_pos h1]; unfold validate; exact if_pos h1
  rw [if_neg h1]; unfold validate; refine (if_neg h1).trans ?_
  by_cases h2 : capByte s 0 ≠ 0xDD
  · rw [if_pos h2]; exact if_pos h2
  rw [if_neg h2]; refine (if_neg h2).trans ?_
  by_cases h3 : s.capture.last ≠ 0x77
  · rw [if_pos h3]; exact if_pos h3
  rw [if_neg h3]; refine (if_neg h3).trans ?_
  unfold validateHeader
  by_cases h5 : s.capture.len.toNat ≠ frameLength (capByte s 3)
  · rw [if_pos h5]; exact if_pos h5
  rw [if_neg h5]; refine (if_neg h5).trans ?_
  by_cases h6 : capByte s 2 ≠ 0x00
  · rw [if_pos h6]; exact if_pos h6
  rw [if_neg h6]; refine (if_neg h6).trans ?_
  unfold validateType
  by_cases h7 : classify (capByte s 1) = .unknown
  · rw [if_pos h7]; refine (if_pos h7).trans ?_
    exact congrArg (fun r => State.mk s.capture
      ⟨.unknownResponseType, .validate, zext16 (capByte s 1), 0⟩
      ⟨false, r, capByte s 1, capByte s 2, capByte s 3, 0, 0⟩ .cleared s.host) h7
  rw [if_neg h7]; refine (if_neg h7).trans ?_
  simp only [validateChecksum, hm]
  rfl

/-- The first failing step by the same case distinction as `validate_eq`. -/
theorem firstFailure_eq (s : State) : firstFailure validationSteps s =
    if s.capture.len.toNat < 7 then .incompleteFrame
    else if capByte s 0 ≠ 0xDD then .invalidStartByte
    else if s.capture.last ≠ 0x77 then .invalidEndByte
    else if s.capture.len.toNat ≠ frameLength (capByte s 3) then .lengthMismatch
    else if capByte s 2 ≠ 0x00 then .deviceStatusError
    else if classify (capByte s 1) = .unknown then .unknownResponseType
    else if transmittedChecksum s ≠ computedChecksum s then .checksumMismatch
    else .ok := by
  have flip : ∀ (p q : Prop) [Decidable p] [Decidable q] (a b : ResultKind), (p ↔ ¬q) →
      (if p then a else b) = if q then b else a := by
    intro p q _ _ a b h
    by_cases hq : q
    · rw [if_pos hq, if_neg (fun hp => h.1 hp hq)]
    · rw [if_neg hq, if_pos (h.2 hq)]
  simp only [firstFailure, validationSteps, decide_eq_true_eq, beq_iff_eq, Bool.or_eq_true]
  rw [flip _ (s.capture.len.toNat < 7) _ _ (by omega), flip _ (capByte s 0 ≠ 0xDD) _ _ not_not.symm,
    flip _ (s.capture.last ≠ 0x77) _ _ not_not.symm,
    flip (s.capture.len.toNat = 4 + (capByte s 3).toNat + 2 + 1) (s.capture.len.toNat ≠ frameLength (capByte s 3)) _ _
      not_not.symm,
    flip _ (capByte s 2 ≠ 0x00) _ _ not_not.symm,
    flip (capByte s 1 = 0x03 ∨ capByte s 1 = 0x04) (classify (capByte s 1) = .unknown) _ _ (by rw [classify_eq_unknown_iff]; tauto),
    flip (transmittedChecksum s = computedChecksum s) (transmittedChecksum s ≠ computedChecksum s) _ _ not_not.symm]

/-- DECODE BASIC over the state it starts from: one line per outcome of R190. -/
theorem decodeRecord_basic_eq (s : State) : decodeRecord .basic s =
    if s.frame.valid = false then
      { s with record := .cleared, result := ⟨.notValidated, .decode, 0, 0⟩ }
    else if s.frame.payLen.toNat ≠ 38 then
      { s with record := .cleared, result := ⟨.recordSizeMismatch, .decode, zext16 s.frame.payLen, 38⟩ }
    else if be16 s (4 + s.frame.payLen.toNat) ≠ s.frame.csumCalc then
      { s with record := .cleared,
               result := ⟨.checksumMismatch, .decode, be16 s (4 + s.frame.payLen.toNat), s.frame.csumCalc⟩ }
    else
      { s with record := ⟨.basic, basicRecord s s.frame.payLen.toNat, .zero⟩, result := ⟨.ok, .decode, 0, 0⟩ } := by
  unfold decodeRecord
  refine (if_neg (by decide)).trans ?_
  by_cases h1 : s.frame.valid = false
  · rw [if_pos h1]; exact if_pos h1
  rw [if_neg h1]; refine (if_neg h1).trans ?_
  refine (if_pos rfl).trans ?_
  unfold decodeBasic
  by_cases h2 : s.frame.payLen.toNat ≠ 38
  · rw [if_pos h2]; exact if_pos h2
  rw [if_neg h2]; refine (if_neg h2).trans ?_
  by_cases h3 : be16 s (4 + s.frame.payLen.toNat) ≠ s.frame.csumCalc
  · rw [if_pos h3]; exact if_pos h3
  rw [if_neg h3]; exact if_neg h3

/-- DECODE CELLS over the state it starts from: one line per outcome of R190. -/
theorem decodeRecord_cells_eq (s : State) : decodeRecord .cells s =
    if s.frame.valid = false then
      { s with record := .cleared, result := ⟨.notValidated, .decode, 0, 0⟩ }
    else if s.frame.payLen.toNat % 2 = 1 ∨ 12 < s.frame.payLen.toNat then
      { s with record := .cleared,
               result := ⟨.recordSizeMismatch, .decode, zext16 s.frame.payLen, cellLenExpected s.frame.payLen⟩ }
    else
      { s with record := ⟨.cells, .zero, cellRecord s s.frame.payLen.toNat⟩, result := ⟨.ok, .decode, 0, 0⟩ } := by
  unfold decodeRecord
  refine (if_neg (by decide)).trans ?_
  by_cases h1 : s.frame.valid = false
  · rw [if_pos h1]; exact if_pos h1
  rw [if_neg h1]; refine (if_neg h1).trans ?_
  refine (if_neg (by decide)).trans ?_
  unfold decodeCells
  by_cases h2 : s.frame.payLen.toNat % 2 = 1 ∨ 12 < s.frame.payLen.toNat
  · rw [if_pos h2]; exact if_pos h2
  rw [if_neg h2]; exact if_neg h2

/-- DECODE UNKNOWN over the state it starts from (R191). -/
theorem decodeRecord_unknown_eq (s : State) : decodeRecord .unknown s =
    { s with record := .cleared, result := ⟨.unsupportedType, .decode, 3, 0⟩ } := rfl

/-- PUSH over the state it starts from (R142). -/
theorem execPush_eq (b : Byte) (s : State) : execPush b s = .next
    { s with
      capture :=
        { buf := if s.capture.len.toNat < 262 then s.capture.buf.write s.capture.len.toNat b else s.capture.buf
          len := nextLen s.capture.len
          last := b }
      frame := { s.frame with valid := false }
      record := .cleared } := by
  by_cases h : s.capture.len.toNat < 262
  · simp only [execPush, captureByte, Config.capSize, if_pos h]; rfl
  · simp only [execPush, captureByte, Config.capSize, if_neg h]; rfl

/-- CAP_LEN after a PUSH, as a number: one more, saturating (R32). -/
theorem nextLen_toNat (len : Half) : (nextLen len).toNat = min (len.toNat + 1) 0xFFFF := by
  unfold nextLen
  have := len.isLt
  split
  · rw [BitVec.toNat_add, show (1 : Half).toNat = 1 from rfl]
    omega
  · omega

end Sys2Proof.Machine
end

