-- ==== Sys2Proof/Laws/Fields.lean ====
section
/-! SUPPORT. Bit fields as numbers: the two fields of a command word, two bytes joined into a 16-bit value, and a wire
value's bytes joined again. -/

namespace Sys2Proof

/-- Two bytes joined, as a number. -/
theorem append_toNat (a b : Byte) : (a ++ b : Half).toNat = a.toNat * 256 + b.toNat := by
  have hb := b.isLt
  rw [BitVec.toNat_append, ← Nat.shiftLeft_add_eq_or_of_lt hb, Nat.shiftLeft_eq]

theorem opField_toNat (w : Half) : (opField w).toNat = w.toNat / 256 := by
  have hw := w.isLt
  simp only [opField, BitVec.extractLsb'_toNat, Nat.shiftRight_eq_div_pow]
  omega

theorem argField_toNat (w : Half) : (argField w).toNat = w.toNat % 256 := by
  simp [argField, BitVec.extractLsb'_toNat]

@[simp] theorem opField_append (a b : Byte) : opField (a ++ b : Half) = a := by
  apply BitVec.eq_of_toNat_eq
  rw [opField_toNat, append_toNat]
  have := b.isLt
  omega

@[simp] theorem argField_append (a b : Byte) : argField (a ++ b : Half) = b := by
  apply BitVec.eq_of_toNat_eq
  rw [argField_toNat, append_toNat]
  have := b.isLt
  omega

/-- A word is its two fields joined (R100). -/
theorem fields_append (w : Half) : opField w ++ argField w = w := by
  apply BitVec.eq_of_toNat_eq
  rw [append_toNat, opField_toNat, argField_toNat]
  omega

/-- Equal joined bytes are equal bytes. -/
theorem append_inj {a b c d : Byte} (h : (a ++ b : Half) = (c ++ d : Half)) : a = c ∧ b = d := by
  have h1 := congrArg opField h
  have h2 := congrArg argField h
  simp only [opField_append, argField_append] at h1 h2
  exact ⟨h1, h2⟩

namespace Machine

/-- The two wire bytes of a u16 joined again (R81, R82). -/
theorem wire16_join (v : Half) : (v.extractLsb' 8 8 ++ v.extractLsb' 0 8 : Half) = v := fields_append v

/-- The four wire bytes of a u32 joined again (R81, R83). -/
theorem wire32_join (v : Word) :
    (((v.extractLsb' 24 8 ++ v.extractLsb' 16 8) ++ v.extractLsb' 8 8) ++ v.extractLsb' 0 8 : Word) = v := by
  apply BitVec.eq_of_toNat_eq
  have hv := v.isLt
  have e : ∀ (n : Nat) (x : BitVec n) (y : Byte), (x ++ y).toNat = x.toNat * 256 + y.toNat := by
    intro n x y
    rw [BitVec.toNat_append, ← Nat.shiftLeft_add_eq_or_of_lt y.isLt, Nat.shiftLeft_eq]
  simp only [e, BitVec.extractLsb'_toNat, Nat.shiftRight_eq_div_pow]
  omega

end Machine

end Sys2Proof
end

