-- ==== Sys2Proof/Laws/Invariant.lean ====
section
/-! SUPPORT. Laws of the words in Safety: what the invariant and a held frame depend on. -/

namespace Sys2Proof.Machine

theorem computedChecksum_setPending (s : State) (p : List HostAction) :
    computedChecksum (setPending s p) = computedChecksum s :=
  congrArg (checksum _ _) (memRead_congr fun _ _ _ => rfl)

theorem latchedFrame_setPending (s : State) (p : List HostAction) : latchedFrame (setPending s p) = latchedFrame s := by
  simp only [latchedFrame, computedChecksum_setPending]
  rfl

theorem firstFailure_setPending (s : State) (p : List HostAction) :
    firstFailure validationSteps (setPending s p) = firstFailure validationSteps s := by
  simp only [firstFailure, validationSteps, computedChecksum_setPending]
  rfl

/-- The invariant does not look at what the host does next (R30: the command sequence is no state of the block). -/
theorem inv_setPending {s : State} (h : Inv s) (p : List HostAction) : Inv (setPending s p) :=
  ⟨⟨h.capture.wf, h.capture.written, h.capture.emptyLast, h.capture.lastStored⟩,
    ⟨fun hv => ⟨(firstFailure_setPending s p).trans (h.frame.describes hv).1,
        (h.frame.describes hv).2.trans (latchedFrame_setPending s p).symm⟩,
      h.frame.classified, h.frame.unreached⟩,
    ⟨h.record.noRecord, h.record.basicRecord, h.record.cellRecord⟩, ⟨h.result.stage, h.result.okDiag⟩⟩

/-- A state whose captured bytes are these holds them as a frame. -/
theorem holdsFrame_of_bytes {s : State} {bs : List Byte} (hl : s.capture.len.toNat = bs.length)
    (hb : memRead s 0 bs.length = bs) (hlast : s.capture.last = bs.getLastD 0) : HoldsFrame s bs := by
  refine ⟨hl, fun i b h => ?_, hlast⟩
  rw [← hb, memRead_getElem?] at h
  split at h
  · simpa using h
  · cases h

end Sys2Proof.Machine
end

