-- ==== Sys2Proof/Laws/PerInstr.lean ====
section
/-! SUPPORT. The family EncodeRow: what every command's encoding is to the opcode table (R101), one lemma per constructor. -/

namespace Sys2Proof

/-- The command's row stands in the opcode table, its word is of that row and of no other, and the word's fields are the
command's (R100, R101). -/
def Laws.EncodeRow.Statement (i : Instr) : Prop :=
  i.row ∈ opcodeTable ∧ (∀ r ∈ opcodeTable, r.covers (encode i) = true ↔ r = i.row) ∧
  opField (encode i) = i.opcode ∧ argField (encode i) = i.argument

theorem Laws.EncodeRow.nop : Laws.EncodeRow.Statement .nop := by
  unfold Laws.EncodeRow.Statement; decide

theorem Laws.EncodeRow.clear : Laws.EncodeRow.Statement .clear := by
  unfold Laws.EncodeRow.Statement; decide

theorem Laws.EncodeRow.push (b : Byte) : Laws.EncodeRow.Statement (.push b) := by
  unfold Laws.EncodeRow.Statement; revert b; decide

theorem Laws.EncodeRow.validate : Laws.EncodeRow.Statement .validate := by
  unfold Laws.EncodeRow.Statement; decide

theorem Laws.EncodeRow.decodeBasic : Laws.EncodeRow.Statement .decodeBasic := by
  unfold Laws.EncodeRow.Statement; decide

theorem Laws.EncodeRow.decodeCells : Laws.EncodeRow.Statement .decodeCells := by
  unfold Laws.EncodeRow.Statement; decide

theorem Laws.EncodeRow.decodeUnknown : Laws.EncodeRow.Statement .decodeUnknown := by
  unfold Laws.EncodeRow.Statement; decide

theorem Laws.EncodeRow.parse : Laws.EncodeRow.Statement .parse := by
  unfold Laws.EncodeRow.Statement; decide

end Sys2Proof
end

