-- ==== Sys2Proof/Tests/Slice0.lean ====
section
/-! SUPPORT. The model's own tests. Expected results are the vectors and programs of spec/95_test_vectors.md, named by their
ids, or words and tables written out from the rules. The second half holds one witness for each statement with
hypotheses: a state and operands that meet them all, at the boundary of each clause. -/

namespace Sys2Proof.Machine

/-! ### Well-formed commands (R103) -/

theorem test_wf_refuses_reserved_opcode :
    (RawCommand.mk 0x06 0x00).wellFormed = false ∧ (RawCommand.mk 0xFF 0xFF).wellFormed = false := by decide

theorem test_wf_refuses_nonzero_argument :
    (RawCommand.mk 0x00 0x01).wellFormed = false ∧ (RawCommand.mk 0x01 0x80).wellFormed = false ∧
    (RawCommand.mk 0x03 0x01).wellFormed = false ∧ (RawCommand.mk 0x05 0xFF).wellFormed = false := by decide

theorem test_wf_refuses_decode_type :
    (RawCommand.mk 0x04 0x00).wellFormed = false ∧ (RawCommand.mk 0x04 0x04).wellFormed = false := by decide

theorem test_wf_accepts :
    (RawCommand.mk 0x02 0xFF).wellFormed = true ∧ (RawCommand.mk 0x04 0x03).wellFormed = true ∧
    (RawCommand.mk 0x05 0x00).wellFormed = true := by decide

/-! ### Decoding: each word is OP in bits 15:8 and ARG in bits 7:0 (R100), by the map of R101 -/

theorem test_decode_nop : decode 0b0000000000000000 = .ok .nop := by decide
theorem test_decode_clear : decode 0b0000000100000000 = .ok .clear := by decide
theorem test_decode_push : decode 0b0000001011011101 = .ok (.push 0xDD) := by decide
theorem test_decode_validate : decode 0b0000001100000000 = .ok .validate := by decide
theorem test_decode_basic : decode 0b0000010000000001 = .ok .decodeBasic := by decide
theorem test_decode_cells : decode 0b0000010000000010 = .ok .decodeCells := by decide
theorem test_decode_unknown : decode 0b0000010000000011 = .ok .decodeUnknown := by decide
theorem test_decode_parse : decode 0b0000010100000000 = .ok .parse := by decide

theorem test_decode_rejects_by_name :
    decode 0x0600 = .error (.reservedOpcode 0x06) ∧ decode 0x0301 = .error (.nonzeroArgument 0x03 0x01) ∧
    decode 0x0404 = .error (.illegalDecodeType 0x04) := by decide

theorem test_decode_table_word :
    decodeTableWord 16 0x02DD = some (.push 0xDD) ∧ decodeTableWord 16 0x0402 = some .decodeCells ∧
    decodeTableWord 16 0x0600 = none := by decide

/-! ### The frames of spec/95_test_vectors.md and states that captured them -/

/-- Bytes at consecutive indices. -/
def cellsFrom : Nat → List Byte → Memory
  | _, [] => []
  | i, b :: bs => (i, b) :: cellsFrom (i + 1) bs

/-- The reset state after these bytes were pushed. -/
def captured (bs : List Byte) : State :=
  { State.reset with capture := ⟨cellsFrom 0 bs, BitVec.ofNat 16 bs.length, bs.getLastD 0⟩ }

def cv4 : List Byte := [0xDD, 0x04, 0x00, 0x08, 0x0C, 0xE4, 0x0C, 0xE5, 0x0C, 0xE6, 0x0C, 0xE7, 0xFC, 0x32, 0x77]

def cv6Payload : List Byte := [0x0C, 0xE4, 0x0C, 0xE5, 0x0C, 0xE6, 0x0C, 0xE7, 0x0C, 0xE8, 0x0F, 0xFF]

def type05 : List Byte := [0xDD, 0x05, 0x00, 0x01, 0x01, 0xFF, 0xFE, 0x77]

/-- The frame BASIC with the given ntc_count and checksum bytes (V40, V48). -/
def basicFrame (ntcCount csumHigh csumLow : Byte) : List Byte :=
  [0xDD, 0x03, 0x00, 0x26, 0x18, 0x20, 0xFF, 0x38, 0x27, 0x10, 0x27, 0x10, 0x00, 0x05, 0x4A, 0x21, 0x00, 0x00, 0x00,
   0x03, 0x00, 0x00, 0x10, 0x50, 0x03, 0x06, ntcCount, 0x0B, 0xA5, 0x0B, 0xAF, 0x12, 0x34, 0x01, 0x02, 0x03, 0x04, 0x05,
   0x06, 0x07, 0x08, 0x09, csumHigh, csumLow, 0x77]

/-- The four result registers. -/
def outcome (s : State) : ResultKind × Stage × Half × Half :=
  (s.result.kind, s.result.stage, s.result.obs, s.result.exp)

/-! ### NOP, CLEAR, PUSH -/

/-- V6. -/
theorem test_nop_keeps_the_result :
    exec .nop ((captured cv4).raise .validate .checksumMismatch 0xFC33 0xFC32)
      = .next ((captured cv4).raise .validate .checksumMismatch 0xFC33 0xFC32) := rfl

/-- V5. -/
theorem test_clear_keeps_the_bytes :
    exec .clear (parse (captured cv4)) = .next { State.reset with capture := ⟨cellsFrom 0 cv4, 0, 0⟩ } := by rfl

/-- V2. -/
theorem test_push_first_byte :
    exec (.push 0xDD) State.reset = .next { State.reset with capture := ⟨[(0, 0xDD)], 1, 0xDD⟩ } := by rfl

/-- V3: byte 263 is counted and kept as LAST_BYTE, not stored. -/
theorem test_push_beyond_the_buffer (s : State) (h : s.capture.len = 262) :
    (captureByte 0xAB s).capture = ⟨s.capture.buf, 263, 0xAB⟩ := by
  simp [captureByte, nextLen, h, Config.capSize]

/-! ### VALIDATE -/

/-- V11, V12, V13, V15, V17, V16, V18, V19, V21, V23, V28: the first failing step names the kind. -/
theorem test_validate_rejections :
    [[0xDD, 0x04, 0x00, 0x00, 0x00, 0x77], [0x00, 0x04, 0x00, 0x00, 0x00, 0x77], 0xDC :: cv4.drop 1,
     0xDC :: (cv4.drop 1).dropLast ++ [0x76], [0xDD, 0x03, 0x00, 0x01, 0x00, 0x00, 0x78],
     [0xDD, 0x03, 0x00, 0x01, 0x00, 0x00, 0x77], [0xDD, 0x04, 0x80, 0x02, 0x0C, 0xE4, 0xFE, 0x8E, 0x77],
     [0xDD, 0x04, 0x80, 0x05, 0x0C, 0xE4, 0xFF, 0x0E, 0x77], type05, [0xDD, 0x09, 0x01, 0x00, 0xFF, 0xFF, 0x77],
     [0xDD, 0xA5, 0x03, 0x00, 0xFF, 0xFD, 0x77]].map (fun bs => outcome (validate (captured bs)))
    = [(.incompleteFrame, .validate, 6, 7), (.incompleteFrame, .validate, 6, 7),
       (.invalidStartByte, .validate, 0xDC, 0xDD), (.invalidStartByte, .validate, 0xDC, 0xDD),
       (.invalidEndByte, .validate, 0x78, 0x77), (.lengthMismatch, .validate, 7, 8),
       (.deviceStatusError, .validate, 0x80, 0), (.lengthMismatch, .validate, 9, 0x0C),
       (.unknownResponseType, .validate, 0x05, 0), (.deviceStatusError, .validate, 0x01, 0),
       (.deviceStatusError, .validate, 0x03, 0)] := by decide

/-- V20, V24, V22, V25: the frame group. -/
theorem test_validate_frame_group :
    [cv4, cv4.take 13 ++ [0x33, 0x77], [0xDD, 0x05, 0x00, 0x01, 0x01, 0x12, 0x34, 0x77],
     [0xDD, 0x03, 0x00, 0x00, 0x00, 0x00, 0x77]].map (fun bs => (validate (captured bs)).frame)
    = [⟨true, .cells, 0x04, 0x00, 0x08, 0xFC32, 0xFC32⟩, ⟨false, .cells, 0x04, 0x00, 0x08, 0xFC33, 0xFC32⟩,
       ⟨false, .unknown, 0x05, 0x00, 0x01, 0, 0⟩, ⟨true, .basic, 0x03, 0x00, 0x00, 0, 0⟩] := by decide

/-! ### DECODE -/

/-- V40, all but the slot that is not meaningful. -/
theorem test_decode_basic_fields :
    { basicRecord (captured (basicFrame 0x02 0xFB 0x42)) 38 with temp := #v[0, 0, 0] } =
    { totalV := 0x1820, current := 0xFF38, remainCap := 0x2710, nominalCap := 0x2710, cycles := 5, date := 0x4A21
      balance := 3, protect := 0, swVer := 0x10, soc := 0x50, fet := 3, cells := 6, ntcCount := 2, tempCount := 2
      temp := #v[0, 0, 0], trailer := #v[1, 2, 3, 4, 5, 6, 7, 8, 9], csum := 0xFB42 } := by decide

/-- V48: ntc_count 5 converts three slots. -/
theorem test_decode_basic_bounded_slots :
    let t := decodeRecord .basic (validate (captured (basicFrame 0x05 0xFB 0x3F)))
    outcome t = (.ok, .decode, 0, 0) ∧ t.record.bi.ntcCount = 5 ∧ t.record.bi.tempCount = 3 ∧
      t.record.bi.temp = #v[0x0BA5, 0x0BAF, 0x1234] := by decide

/-- V41. -/
theorem test_decode_cells_record :
    (decodeRecord .cells (validate (captured cv4))).record
      = ⟨.cells, .zero, ⟨4, #v[0x0CE4, 0x0CE5, 0x0CE6, 0x0CE7, 0, 0], 0xFC32⟩⟩ := by decide

/-- V53, V59. -/
theorem test_decode_cells_refused :
    outcome (decodeRecord .cells (validate (captured (basicFrame 0x02 0xFB 0x42))))
      = (.recordSizeMismatch, .decode, 0x26, 0x0C) ∧
    outcome (decodeRecord .cells (validate (captured type05))) = (.notValidated, .decode, 0, 0) := by decide

/-- V54, V56. -/
theorem test_decode_unknown_refused :
    outcome (decodeRecord .unknown (validate (captured cv4))) = (.unsupportedType, .decode, 3, 0) ∧
    (decodeRecord .unknown (validate (captured cv4))).frame.valid = true ∧
    outcome (decodeRecord .unknown State.reset) = (.unsupportedType, .decode, 3, 0) := by decide

/-! ### PARSE -/

/-- V70 (program P1's end state). -/
theorem test_parse_cells :
    exec .parse (captured cv4) = .next { captured cv4 with
      result := ⟨.ok, .decode, 0, 0⟩
      frame := ⟨true, .cells, 0x04, 0x00, 0x08, 0xFC32, 0xFC32⟩
      record := ⟨.cells, .zero, ⟨4, #v[0x0CE4, 0x0CE5, 0x0CE6, 0x0CE7, 0, 0], 0xFC32⟩⟩ } := by rfl

/-- V43, V72, V73, and the last clause of V47. -/
theorem test_parse_failures :
    [[0xDD, 0x04, 0x00, 0x07, 0x0C, 0xE4, 0x0C, 0xE5, 0x0C, 0xE6, 0x0C, 0xFD, 0x1A, 0x77],
     cv4.take 13 ++ [0x33, 0x77], type05, [0xDD, 0x03, 0x00, 0x0C] ++ cv6Payload ++ [0xFA, 0x2C, 0x77]].map
      (fun bs => outcome (parse (captured bs)))
    = [(.recordSizeMismatch, .decode, 7, 6), (.checksumMismatch, .validate, 0xFC33, 0xFC32),
       (.unknownResponseType, .validate, 5, 0), (.recordSizeMismatch, .decode, 0x0C, 0x26)] := by decide

/-! ### Illegal words, the checksum, the read port, the step -/

/-- V8: an illegal word changes the four result registers alone. -/
theorem test_illegal_words :
    [(0x0600 : Half), 0x0400, 0x0404, 0x0301, 0x0001, 0x0101, 0x0501, 0xFFFF].map (fun w => runWord w (captured cv4))
    = [(0x0600 : Half), 0x0400, 0x0404, 0x0301, 0x0001, 0x0101, 0x0501, 0xFFFF].map
        (fun w => .next { captured cv4 with result := ⟨.illegalCommand, .command, w, 0⟩ }) := by rfl

/-- V60 to V65 (the table of R239). -/
theorem test_checksum_values :
    checksum 0x00 0x00 [] = 0x0000 ∧ checksum 0x00 0x00 [0x01] = 0xFFFF ∧ checksum 0x00 0x00 [0x80] = 0xFF80 ∧
    checksum 0x03 0x00 [] = 0xFFFD ∧ checksum 0x04 0x00 [] = 0xFFFC ∧
    checksum 0x00 0x08 [0x0C, 0xE4, 0x0C, 0xE5, 0x0C, 0xE6, 0x0C, 0xE7] = 0xFC32 := by decide

set_option maxRecDepth 20000 in
/-- V66, V67. -/
theorem test_checksum_longest :
    checksum 0x00 0xFF (List.replicate 255 0xFF) = 0x0100 ∧ checksum 0xFF 0xFF (List.replicate 255 0xFF) = 0x0001 :=
  ⟨by decide, by decide⟩

/-- The register reads of program P1. -/
theorem test_read_port :
    readPort (parse (captured cv4)) 0x002 = 0x00000000 ∧ readPort (parse (captured cv4)) 0x030 = 0x00000004 ∧
    readPort (parse (captured cv4)) 0x031 = 0x00000CE4 ∧ readPort (parse (captured cv4)) 0x104 = 0x0000000C := by decide

/-- R85 for the two byte orders, on the bytes of V49's third slot. -/
theorem test_native_pair : nativePair .little 0x12 0x34 = 0x3412 ∧ nativePair .big 0x12 0x34 = 0x1234 := by decide

theorem test_step_runs_the_fetched_word :
    step (State.reset.withFetchWord 16 0x02DD) = exec (.push 0xDD) State.reset := by rfl

/-! ### Wire formats, field meanings, assembler -/

/-- The two templates of R109, and the frame CV4 built from its cells. -/
theorem test_frames :
    requestFrame 0x03 = [0xDD, 0xA5, 0x03, 0x00, 0xFF, 0xFD, 0x77] ∧
    requestFrame 0x04 = [0xDD, 0xA5, 0x04, 0x00, 0xFF, 0xFC, 0x77] ∧
    responseFrame 0x04 0x00 (cellPayload [0x0CE4, 0x0CE5, 0x0CE6, 0x0CE7]) = cv4 := by decide

/-- W4. -/
theorem test_date : dateYear 0x4A21 = 2037 ∧ dateMonth 0x4A21 = 1 ∧ dateDay 0x4A21 = 1 := by decide

/-- W1, W5, and the currents of R197. -/
theorem test_units :
    packVolts 0x1820 = 6176 / 100 ∧ tempCelsius 0x0BA5 = 25 ∧ tempCelsius 0x0BAF = 26 ∧ tempCelsius 2731 = 0 ∧
    s16 0xFF38 = -200 ∧ s16 0x8000 = -32768 ∧ s16 0x7FFF = 32767 := by
  refine ⟨?_, ?_, ?_, ?_, by decide, by decide, by decide⟩ <;> simp [packVolts, tempCelsius] <;> norm_num

theorem test_assembler_lines :
    assembleLine "DECODE CELLS ; a comment".toList = some [.decodeCells] ∧
    assembleLine "PUSH 0xDD".toList = some [.push 0xDD] ∧ assembleLine "PUSH 255".toList = some [.push 0xFF] ∧
    assembleLine "PUSH 256".toList = none ∧ assembleLine "DECODE NONE".toList = none ∧
    assembleLine "LOADFRAME DD, 04 77".toList = some [.clear, .push 0xDD, .push 0x04, .push 0x77] ∧
    assembleLine "LOADFRAME 0xDD".toList = none := by decide

/-- The first and last words of program P4's encoding. -/
theorem test_assemble_program :
    assemble ["LOADFRAME DD A5 03".toList, "VALIDATE".toList] = some [0x0100, 0x02DD, 0x02A5, 0x0203, 0x0300] := by
  decide

/-! ### Witnesses of the encoding and step statements -/

theorem witness_DecodedWordIsItsEncoding :
    decode 0x0000 = .ok .nop ∧ decode 0x0200 = .ok (.push 0x00) ∧ decode 0x02FF = .ok (.push 0xFF) ∧
    decode 0x0403 = .ok .decodeUnknown := by decide

theorem witness_DecoderAcceptsExactlyTheTable :
    (rawCommand 0x0401).wellFormed = true ∧ (∃ r ∈ opcodeTable, r.covers 0x0401 = true) ∧
    (rawCommand 0x0404).wellFormed = false ∧ ¬ ∃ r ∈ opcodeTable, r.covers 0x0404 = true := by decide

theorem witness_StepRunsTheDecodedCommand :
    (setPending State.reset [.write 0x02DD, .read 0]).host.pending = .write 0x02DD :: [.read 0] ∧
    decode 0x02DD = .ok (.push 0xDD) := by decide

/-- The boundary words of each clause of R103; no word is of two clauses. -/
theorem witness_IllegalWordRaisesIllegalCommand :
    (setPending State.reset [.write 0x0600]).host.pending = .write 0x0600 :: [] ∧
    (∀ w ∈ [(0x0600 : Half), 0xFFFF], 0x06 ≤ w.toNat / 256) ∧
    (∀ w ∈ [(0x0001 : Half), 0x00FF, 0x0101, 0x01FF, 0x0301, 0x03FF, 0x0501, 0x05FF],
      (w.toNat / 256 = 0x00 ∨ w.toNat / 256 = 0x01 ∨ w.toNat / 256 = 0x03 ∨ w.toNat / 256 = 0x05) ∧
      w.toNat % 256 ≠ 0) ∧
    (∀ w ∈ [(0x0400 : Half), 0x0404, 0x04FF],
      w.toNat / 256 = 0x04 ∧ (w.toNat % 256 = 0x00 ∨ 0x04 ≤ w.toNat % 256)) :=
  ⟨rfl, by simp, by simp, by simp⟩

theorem witness_IdleStepKeepsTheState : State.reset.host.pending = [] := rfl

theorem witness_RegisterReadChangesNoRegister :
    (setPending (captured cv4) [.read 0xFFF, .write 0x0300]).host.pending = .read 0xFFF :: [.write 0x0300] := rfl

theorem witness_HardwareResetReachesTheResetState :
    (setPending (parse (captured cv4)) [.reset]).host.pending = .reset :: [] := rfl

/-- The ends of the four reserved ranges, each in its own clause. -/
theorem witness_ReadPortFollowsTheRegisterMap :
    (∀ a ∈ [(0x00E : BitVec 12), 0x00F], 0x00E ≤ a.toNat ∧ a.toNat ≤ 0x00F) ∧
    (∀ a ∈ [(0x02B : BitVec 12), 0x02F], 0x02B ≤ a.toNat ∧ a.toNat ≤ 0x02F) ∧
    (∀ a ∈ [(0x038 : BitVec 12), 0x0FF], 0x038 ≤ a.toNat ∧ a.toNat ≤ 0x0FF) ∧
    (∀ a ∈ [(0x206 : BitVec 12), 0xFFF], 0x206 ≤ a.toNat) := by simp

theorem witness_CodedRegistersHaveTheirCodes : ResultKind.illegalCommand.code = ResultKind.illegalCommand.code := rfl

/-! ### Witnesses of the checksum statements -/

theorem witness_ChecksumSumNeverWrapsInAFrame :
    (List.replicate 255 (0xFF : Byte)).length ≤ 255 ∧ ([] : List Byte).length ≤ 255 :=
  ⟨by rw [List.length_replicate], by decide⟩

theorem witness_ChecksumDetectsEverySingleBitFlip :
    (0 < 8 ∧ 7 < 8) ∧ checksum 0x00 0x01 [0x01 ^^^ (1 <<< 7)] ≠ checksum 0x00 0x01 [0x01] := by decide

/-- A permutation that moves the status and the length byte too, and one byte up and another down (V34). -/
theorem witness_ChecksumIgnoresTheOrderOfBytes :
    ((0x00 : Byte) :: 0x02 :: [0x0C, 0xE4]).Perm (0xE4 :: 0x00 :: [0x02, 0x0C]) ∧
    (((0x00 : Byte) :: 0x02 :: [0x0C, 0xE4]).map BitVec.toNat).sum % 65536
      = (((0x00 : Byte) :: 0x02 :: [0x0D, 0xE3]).map BitVec.toNat).sum % 65536 := by
  decide

theorem witness_RequestFramesCarryTheirChecksum : (0x01 : Byte) ≠ 0 ∧ (0xFF : Byte) ≠ 0 := by decide

/-! ### Witnesses of the capture statements -/

/-- PUSH at each side of the capacity and of the saturation; the operands are free. -/
theorem witness_PushAppendsOneByte :
    ({ State.reset with capture := ⟨[], 261, 0⟩ } : State).capture.len.toNat < 262 ∧
    ¬ ({ State.reset with capture := ⟨[], 262, 0⟩ } : State).capture.len.toNat < 262 ∧
    ¬ ({ State.reset with capture := ⟨[], 0xFFFF, 0⟩ } : State).capture.len.toNat < 0xFFFF := by decide

theorem witness_OnlyPushWritesCaptureBytes :
    exec .validate (captured cv4) = .next (validate (captured cv4)) ∧
    (∀ b, Instr.validate = .push b → ¬((captured cv4).capture.len.toNat < 262 ∧ 15 = (captured cv4).capture.len.toNat)) ∧
    (∀ b, Instr.validate ≠ .push b) ∧ Instr.validate ≠ .clear ∧
    exec (.push 0xAA) (captured cv4) = .next (clearRecord (setFrameValid (captureByte 0xAA (captured cv4)) false)) ∧
    (∀ b, Instr.push 0xAA = .push b → ¬((captured cv4).capture.len.toNat < 262 ∧ 14 = (captured cv4).capture.len.toNat)) :=
  ⟨rfl, nofun, nofun, nofun, rfl, fun _ _ h => by revert h; decide⟩

theorem witness_CaptureHoldsThePushedBytes :
    (∀ i ∈ [Instr.push 0xDD, .validate, .push 0x04, .nop], i ≠ .clear) ∧
    execAll [Instr.push 0xDD, .validate, .push 0x04, .nop] (hardReset State.reset)
      ∈ [execAll [Instr.clear, .push 0xDD, .validate, .push 0x04, .nop] State.reset,
         execAll [Instr.push 0xDD, .validate, .push 0x04, .nop] (hardReset State.reset)] ∧
    (pushedBytes [Instr.push 0xDD, .validate, .push 0x04, .nop])[1]? = some 0x04 ∧ 1 < 262 ∧
    (pushedBytes [Instr.push 0xDD, .validate, .push 0x04, .nop]).getLast? = some 0x04 :=
  ⟨by decide, by simp, by decide, by decide, by decide⟩

/-! ### Witnesses of the validation statements -/

theorem witness_ValidateRejectsAShortCapture :
    (captured []).capture.len.toNat < 7 ∧ (captured (cv4.take 6)).capture.len.toNat < 7 := by decide

/-- A captured frame of 15 bytes is a sound capture. -/
theorem captureInv_captured_cv4 : CaptureInv (captured cv4) :=
  ⟨by decide, by decide, by decide, by decide⟩

theorem witness_ValidateRejectsAWrongStartByte :
    7 ≤ (captured (cv4.drop 8)).capture.len.toNat ∧ capByte (captured (cv4.drop 8)) 0 ≠ 0xDD ∧
    7 ≤ (captured cv4).capture.len.toNat ∧ CaptureInv (captured cv4) :=
  ⟨by decide, by decide, by decide, captureInv_captured_cv4⟩

theorem witness_ValidateRejectsAWrongEndByte :
    (7 ≤ (captured (cv4.take 7)).capture.len.toNat ∧ capByte (captured (cv4.take 7)) 0 = 0xDD ∧
      (captured (cv4.take 7)).capture.last ≠ 0x77) ∧
    (CaptureInv (captured cv4) ∧ 7 ≤ (captured cv4).capture.len.toNat ∧ (captured cv4).capture.len.toNat ≤ 262 ∧
      (captured cv4).capture.len.toNat = 4 + (capByte (captured cv4) 3).toNat + 2 + 1) :=
  ⟨by decide, captureInv_captured_cv4, by decide, by decide, by decide⟩

/-- A capture whose length byte is one too small, and one whose length byte is one too large. -/
theorem witness_ValidateRejectsAWrongLength :
    ∀ s ∈ [captured (cv4.take 3 ++ 0x07 :: cv4.drop 4), captured (cv4.take 3 ++ 0x09 :: cv4.drop 4)],
      7 ≤ s.capture.len.toNat ∧ capByte s 0 = 0xDD ∧ s.capture.last = 0x77 ∧
      s.capture.len.toNat ≠ 4 + (capByte s 3).toNat + 2 + 1 := by decide

theorem witness_ValidateReportsADeviceFault :
    (∀ s ∈ [captured [0xDD, 0x04, 0x80, 0x02, 0x0C, 0xE4, 0xFE, 0x8E, 0x77]],
      7 ≤ s.capture.len.toNat ∧ capByte s 0 = 0xDD ∧ s.capture.last = 0x77 ∧ capByte s 2 ≠ 0x00 ∧
      s.capture.len.toNat = 4 + (capByte s 3).toNat + 2 + 1) ∧
    (∀ s ∈ [captured [0xDD, 0x04, 0x80, 0x05, 0x0C, 0xE4, 0xFF, 0x0E, 0x77]],
      7 ≤ s.capture.len.toNat ∧ capByte s 0 = 0xDD ∧ s.capture.last = 0x77 ∧ capByte s 2 ≠ 0x00 ∧
      s.capture.len.toNat ≠ 4 + (capByte s 3).toNat + 2 + 1) := by decide

theorem witness_ValidateRejectsAnUnknownType :
    ∀ s ∈ [captured type05], 7 ≤ s.capture.len.toNat ∧ capByte s 0 = 0xDD ∧ s.capture.last = 0x77 ∧
      s.capture.len.toNat = 4 + (capByte s 3).toNat + 2 + 1 ∧ capByte s 2 = 0x00 ∧
      capByte s 1 ≠ 0x03 ∧ capByte s 1 ≠ 0x04 := by decide

/-- The shortest frame, a frame of type 0x04, one with a wrong checksum. -/
theorem witness_ValidateComparesTheChecksums :
    ∀ s ∈ [captured [0xDD, 0x03, 0x00, 0x00, 0x00, 0x00, 0x77], captured cv4, captured (cv4.take 13 ++ [0x33, 0x77])],
      7 ≤ s.capture.len.toNat ∧ capByte s 0 = 0xDD ∧ s.capture.last = 0x77 ∧
      s.capture.len.toNat = 4 + (capByte s 3).toNat + 2 + 1 ∧ capByte s 2 = 0x00 ∧
      (capByte s 1 = 0x03 ∨ capByte s 1 = 0x04) := by decide

theorem witness_RepeatedCommandsGiveTheSameState :
    Instr.decodeCells ∈ [Instr.validate, .decodeBasic, .decodeCells, .decodeUnknown] ∧
    exec .decodeCells (validate (captured cv4)) = .next (decodeRecord .cells (validate (captured cv4))) :=
  ⟨by decide, rfl⟩

theorem witness_OverlongCaptureNeverValidates :
    262 < ({ captured cv4 with capture := ⟨cellsFrom 0 cv4, 263, 0x77⟩ } : State).capture.len.toNat ∧
    262 < ({ captured cv4 with capture := ⟨cellsFrom 0 cv4, 0xFFFF, 0x77⟩ } : State).capture.len.toNat := by decide

theorem validCapture_cv4 : ValidCapture (captured cv4) := by
  unfold ValidCapture
  decide

/-- Bit 0 of the first payload byte and bit 7 of the last, of CV4. -/
theorem witness_ValidateDetectsEveryPayloadBitFlip :
    ∀ p ∈ [(4, 0), (11, 7)],
      let s := captured cv4
      let t := memWrite s p.1 (capByte s p.1 ^^^ (1 <<< p.2))
      ValidCapture s ∧ 4 ≤ p.1 ∧ p.1 < 4 + (capByte s 3).toNat ∧ p.2 < 8 ∧ t.capture.len = s.capture.len ∧
      t.capture.last = s.capture.last ∧ capByte t p.1 = capByte s p.1 ^^^ (1 <<< p.2) ∧
      ∀ j, j ≠ p.1 → capByte t j = capByte s j := by
  intro p hp
  have hb : 4 ≤ p.1 ∧ p.1 < 4 + (capByte (captured cv4) 3).toNat ∧ p.2 < 8 := by
    revert p
    decide
  exact ⟨validCapture_cv4, hb.1, hb.2.1, hb.2.2, rfl, rfl, by rw [capByte_memWrite, if_pos rfl],
    fun j hj => by rw [capByte_memWrite, if_neg hj]⟩

theorem witness_RequestFrameIsNoResponse :
    (0x03 : Byte) ≠ 0 ∧ HoldsFrame (captured (requestFrame 0x03)) (requestFrame 0x03) ∧
    (0xFF : Byte) ≠ 0 ∧ HoldsFrame (captured (requestFrame 0xFF)) (requestFrame 0xFF) :=
  ⟨by decide, holdsFrame_of_bytes (by decide) (by decide) (by decide), by decide,
    holdsFrame_of_bytes (by decide) (by decide) (by decide)⟩

/-! ### Witnesses of the decoding statements -/

/-- A validated state whose PAY_LEN is n. -/
def validated (n : Byte) : State :=
  { captured cv4 with frame := ⟨true, .cells, 0x04, 0x00, n, 0, 0⟩ }

theorem witness_DecodeNeedsAValidatedFrame : State.reset.frame.valid = false := rfl

theorem witness_DecodeBasicRejectsAWrongSize :
    ∀ n ∈ [(0 : Byte), 37, 39, 255], (validated n).frame.valid = true ∧ (validated n).frame.payLen.toNat ≠ 38 := by decide

/-- Odd, and 13 (odd and too long), and too long; 0 and 12 are in no clause that refuses. -/
theorem witness_DecodeCellsRejectsAWrongSize :
    (∀ n ∈ [(1 : Byte), 11, 13, 14, 255],
      (validated n).frame.valid = true ∧
      ((validated n).frame.payLen.toNat % 2 = 1 ∨ 12 < (validated n).frame.payLen.toNat)) ∧
    (validated 0).frame.valid = true ∧ (validated 0).frame.payLen.toNat = 0 ∧
    (∀ n ∈ [(0 : Byte), 12],
      ¬((validated n).frame.payLen.toNat % 2 = 1 ∨ 12 < (validated n).frame.payLen.toNat)) := by decide

theorem witness_DecodeBasicLoadsEveryField :
    ∀ s ∈ [validate (captured (basicFrame 0x02 0xFB 0x42)), validate (captured (basicFrame 0x05 0xFB 0x3F))],
      s.frame.valid = true ∧ s.frame.payLen.toNat = 38 ∧ capByte s 42 ++ capByte s 43 = s.frame.csumCalc := by decide

/-- A state that no run reaches: the validator's checksum is not the frame's. -/
theorem witness_SecondGateRejectsADifferentChecksum :
    let s := { captured (basicFrame 0x02 0xFB 0x42) with frame := ⟨true, .basic, 0x03, 0x00, 38, 0xFB42, 0xFB43⟩ }
    s.frame.valid = true ∧ s.frame.payLen.toNat = 38 ∧ capByte s 42 ++ capByte s 43 ≠ s.frame.csumCalc := by decide

/-- The state after PARSE of CV4 meets the invariant, with a record in it. -/
theorem inv_parsed_cv4 : Inv (parse (captured cv4)) where
  capture := ⟨by decide, by decide, by decide, by decide⟩
  frame := ⟨fun _ => ⟨by unfold ValidCapture; decide, by decide⟩, by decide, by decide⟩
  record := ⟨by decide, by decide, fun _ => ⟨by decide, by decide, by decide, by decide⟩⟩
  result := ⟨by decide, by decide⟩

theorem witness_RecordChecksumsAgreeWithTheValidator :
    Inv (parse (captured cv4)) ∧
    exec .decodeCells (parse (captured cv4)) = .next (decodeRecord .cells (parse (captured cv4))) ∧
    (decodeRecord .cells (parse (captured cv4))).result.kind = .ok :=
  ⟨inv_parsed_cv4, rfl, by decide⟩

theorem witness_DecodeCellsLoadsEveryCell :
    ∀ n ∈ [(0 : Byte), 8, 12], (validated n).frame.valid = true ∧ (validated n).frame.payLen.toNat % 2 = 0 ∧
      (validated n).frame.payLen.toNat ≤ 12 := by decide

theorem witness_DecodingIsAllOrNothing :
    Instr.parse ∈ [Instr.decodeBasic, .decodeCells, .decodeUnknown, .parse] ∧
    exec .parse (captured cv4) = .next (parse (captured cv4)) ∧ (parse (captured cv4)).result.kind = .ok ∧
    Instr.decodeBasic ∈ [Instr.decodeBasic, .decodeCells, .decodeUnknown, .parse] ∧
    exec .decodeBasic (parse (captured cv4)) = .next (decodeRecord .basic (parse (captured cv4))) ∧
    (decodeRecord .basic (parse (captured cv4))).result.kind ≠ .ok :=
  ⟨by decide, rfl, by decide, by decide, rfl, by decide⟩

theorem witness_DecodeIgnoresTheClassification :
    Instr.decodeCells ∈ [Instr.decodeBasic, .decodeCells, .decodeUnknown] ∧
    exec .decodeCells (validate (captured cv4)) = .next (decodeRecord .cells (validate (captured cv4))) :=
  ⟨by decide, rfl⟩

/-! ### Witnesses of the PARSE and whole-machine statements -/

/-- A valid frame of each type, and a frame that is refused. -/
theorem witness_ParseIsValidateThenDecode :
    ((validate (captured (basicFrame 0x02 0xFB 0x42))).result.kind = .ok ∧
      (validate (captured (basicFrame 0x02 0xFB 0x42))).frame.rtype = .basic) ∧
    ((validate (captured cv4)).result.kind = .ok ∧ (validate (captured cv4)).frame.rtype = .cells) ∧
    (validate (captured type05)).result.kind ≠ .ok := by decide

theorem witness_ParseStageTellsTheComponent :
    exec .parse (captured cv4) = .next (parse (captured cv4)) ∧ firstFailure validationSteps (captured cv4) = .ok ∧
    exec .parse (captured type05) = .next (parse (captured type05)) ∧
    firstFailure validationSteps (captured type05) ≠ .ok :=
  ⟨rfl, by decide, rfl, by decide⟩

/-- The record that the frame BASIC encodes (V40's table). -/
def basicValues : BasicInfo :=
  { totalV := 0x1820, current := 0xFF38, remainCap := 0x2710, nominalCap := 0x2710, cycles := 5, date := 0x4A21
    balance := 3, protect := 0, swVer := 0x10, soc := 0x50, fet := 3, cells := 6, ntcCount := 2, tempCount := 2
    temp := #v[0x0BA5, 0x0BAF, 0x1234], trailer := #v[1, 2, 3, 4, 5, 6, 7, 8, 9], csum := 0xFB42 }

/-- The frame of that record is BASIC, byte for byte, and a capture of it holds it. -/
theorem witness_ParseRoundTripsEveryValidFrame_basic :
    responseFrame 0x03 0x00 (basicPayload basicValues) = basicFrame 0x02 0xFB 0x42 ∧
    HoldsFrame (captured (basicFrame 0x02 0xFB 0x42)) (responseFrame 0x03 0x00 (basicPayload basicValues)) ∧
    0 < basicValues.ntcCount.toNat ∧ 1 < basicValues.ntcCount.toNat :=
  ⟨by decide, holdsFrame_of_bytes (by decide) (by decide) (by decide), by decide, by decide⟩

/-- No cell, and six. -/
theorem witness_ParseRoundTripsEveryValidFrame_cells :
    ∀ vs ∈ [([] : List Half), [0x0CE4, 0x0CE5, 0x0CE6, 0x0CE7, 0x0CE8, 0x0FFF]],
      vs.length ≤ 6 ∧
      HoldsFrame (captured (responseFrame 0x04 0x00 (cellPayload vs))) (responseFrame 0x04 0x00 (cellPayload vs)) := by
  intro vs h
  refine ⟨by revert vs; decide, holdsFrame_of_bytes ?_ ?_ ?_⟩ <;> revert vs <;> decide

theorem witness_WhichCommandsWriteTheResult :
    exec (.push 0x00) (parse (captured cv4))
      = .next (clearRecord (setFrameValid (captureByte 0x00 (parse (captured cv4))) false)) ∧
    (∃ t, exec .clear (captured cv4) = .next t) ∧
    Instr.parse ∈ [Instr.validate, .decodeBasic, .decodeCells, .decodeUnknown, .parse] ∧
    (∀ i, decode 0x0600 ≠ .ok i) ∧ runWord 0x0600 State.reset = .next (raiseIllegal 0x0600 State.reset) :=
  ⟨rfl, ⟨_, rfl⟩, by decide, nofun, rfl⟩

theorem witness_StepKeepsTheInvariant :
    Inv (setPending (parse (captured cv4)) [.write 0x02AA]) ∧
    step (setPending (parse (captured cv4)) [.write 0x02AA]) = exec (.push 0xAA) (setPending (parse (captured cv4)) []) :=
  ⟨inv_setPending inv_parsed_cv4 _, rfl⟩

/-- CV4 captured over an older capture that left this byte at index 15. -/
def overStale (b : Byte) : State :=
  { captured cv4 with capture := ⟨cellsFrom 0 (cv4 ++ [b]), 15, 0x77⟩ }

theorem inv_overStale (b : Byte) : Inv (overStale b) where
  capture := ⟨rfl, fun i (hi : i < 15) => by interval_cases i <;> rfl, nofun, fun _ _ => rfl⟩
  frame := ⟨nofun, nofun, fun _ => ⟨rfl, rfl⟩⟩
  record := ⟨fun _ => rfl, nofun, nofun⟩
  result := ⟨rfl, fun _ => ⟨rfl, rfl⟩⟩

theorem overStale_bytes (i : Nat) (hi : i < 15) (a : HostAction) :
    capByte (setPending (overStale 0xAA) [a]) i = capByte (setPending (overStale 0xBB) [a]) i := by
  revert i
  exact (by decide : ∀ i, i < 15 → capByte (overStale 0xAA) i = capByte (overStale 0xBB) i)

/-- Two captures with different stale bytes, before VALIDATE and before a read of the last captured byte. -/
theorem witness_StaleCaptureBytesAreNeverUsed :
    ∀ a ∈ [HostAction.write 0x0300, .read 0x10E],
      Inv (setPending (overStale 0xAA) [a]) ∧ Inv (setPending (overStale 0xBB) [a]) ∧
      SameButStale (setPending (overStale 0xAA) [a]) (setPending (overStale 0xBB) [a]) ∧
      capByte (setPending (overStale 0xAA) [a]) 15 ≠ capByte (setPending (overStale 0xBB) [a]) 15 ∧
      readsStale (setPending (overStale 0xAA) [a]) = false ∧ ∃ t, step (setPending (overStale 0xAA) [a]) = .next t := by
  intro a ha
  refine ⟨inv_setPending (inv_overStale _) _, inv_setPending (inv_overStale _) _,
    ⟨rfl, rfl, fun i hi => overStale_bytes i hi a, rfl, rfl, rfl, rfl, rfl⟩, ?_, ?_, ?_⟩
  · exact (by decide : (0xAA : Byte) ≠ 0xBB)
  · revert a
    decide
  · simp only [List.mem_cons, List.not_mem_nil, or_false] at ha
    obtain rfl | rfl := ha
    · exact ⟨_, rfl⟩
    · exact ⟨_, rfl⟩

end Sys2Proof.Machine
end

section
/-! PROOFS. The laws that the statements about the state rest on: what each operation leaves unchanged, and when each
register group is sound (R31 to R34, R39, R48, R260). -/

namespace Sys2Proof.Machine

/-! ### The step by the host's next action -/

/-- Every command answers a next state (R264, R266). -/
theorem exists_exec_eq_next (i : Instr) (s : State) : ∃ t, exec i s = .next t := by
  cases i <;> exact ⟨_, rfl⟩

/-- While the host is silent the block keeps its state (R274). -/
theorem step_of_pending_nil {s : State} (h : s.host.pending = []) : step s = .next s := by
  simp [step, nextAction, h]

/-- One step is the host's next action, on the state whose list has moved past it (R92; log 3). -/
theorem step_of_pending_cons {s : State} {a : HostAction} {rest : List HostAction}
    (h : s.host.pending = a :: rest) : step s = runAction a (setPending s rest) := by
  simp [step, nextAction, h]

/-- A word on the command port either runs its command or raises IllegalCommand (R101, R103). -/
theorem runWord_cases (w : Half) (s : State) :
    (∃ i, decode w = .ok i ∧ runWord w s = exec i s) ∨ runWord w s = .next (raiseIllegal w s) := by
  cases hd : decode w with
  | ok i => exact .inl ⟨i, rfl, by simp [runWord, hd]⟩
  | error e => exact .inr (by simp [runWord, hd])

/-! ### What VALIDATE, DECODE, PARSE and PUSH leave unchanged (R88, R89, R173) -/

/-- VALIDATE writes the result and the frame group and clears the record group, and nothing else. -/
theorem exists_validate_eq (s : State) :
    ∃ f r, validate s = { s with frame := f, record := .cleared, result := r } := by
  rw [validate_eq]
  split_ifs <;> exact ⟨_, _, rfl⟩

/-- DECODE writes the record and the result group, and nothing else. -/
theorem exists_decodeRecord_eq (ty : ResponseType) (s : State) :
    ∃ q r, decodeRecord ty s = { s with record := q, result := r } := by
  cases ty with
  | basic => rw [decodeRecord_basic_eq]; split_ifs <;> exact ⟨_, _, rfl⟩
  | cells => rw [decodeRecord_cells_eq]; split_ifs <;> exact ⟨_, _, rfl⟩
  | unknown => exact ⟨_, _, rfl⟩

@[simp] theorem validate_capture (s : State) : (validate s).capture = s.capture := by
  obtain ⟨f, r, h⟩ := exists_validate_eq s
  rw [h]

@[simp] theorem validate_host (s : State) : (validate s).host = s.host := by
  obtain ⟨f, r, h⟩ := exists_validate_eq s
  rw [h]

@[simp] theorem validate_record (s : State) : (validate s).record = .cleared := by
  obtain ⟨f, r, h⟩ := exists_validate_eq s
  rw [h]

@[simp] theorem decodeRecord_capture (ty : ResponseType) (s : State) : (decodeRecord ty s).capture = s.capture := by
  obtain ⟨q, r, h⟩ := exists_decodeRecord_eq ty s
  rw [h]

@[simp] theorem decodeRecord_host (ty : ResponseType) (s : State) : (decodeRecord ty s).host = s.host := by
  obtain ⟨q, r, h⟩ := exists_decodeRecord_eq ty s
  rw [h]

/-- PARSE is VALIDATE, or VALIDATE and then one DECODE (R245). -/
theorem parse_eq_validate_or_decode (s : State) :
    parse s = validate s ∨ ∃ ty, parse s = decodeRecord ty (validate s) := by
  simp only [parse, decodeAsClassified]
  split
  · split
    · exact .inr ⟨_, rfl⟩
    · exact .inl rfl
  · exact .inl rfl

@[simp] theorem parse_capture (s : State) : (parse s).capture = s.capture := by
  obtain h | ⟨ty, h⟩ := parse_eq_validate_or_decode s <;> simp [h]

@[simp] theorem parse_host (s : State) : (parse s).host = s.host := by
  obtain h | ⟨ty, h⟩ := parse_eq_validate_or_decode s <;> simp [h]

/-- The capture group after a PUSH (R142). -/
theorem captureByte_capture (b : Byte) (s : State) : (captureByte b s).capture =
    { buf := if s.capture.len.toNat < 262 then s.capture.buf.write s.capture.len.toNat b else s.capture.buf
      len := nextLen s.capture.len
      last := b } := by
  unfold captureByte
  split <;> rfl

@[simp] theorem captureByte_frame (b : Byte) (s : State) : (captureByte b s).frame = s.frame := by
  unfold captureByte; split <;> rfl

@[simp] theorem captureByte_result (b : Byte) (s : State) : (captureByte b s).result = s.result := by
  unfold captureByte; split <;> rfl

@[simp] theorem captureByte_host (b : Byte) (s : State) : (captureByte b s).host = s.host := by
  unfold captureByte; split <;> rfl

/-- A PUSH stores its byte at index CAP_LEN, if that is below 262, and leaves every other byte (R142). -/
theorem capByte_captureByte (b : Byte) (s : State) (j : Nat) : capByte (captureByte b s) j =
    if j = s.capture.len.toNat ∧ s.capture.len.toNat < 262 then b else capByte s j := by
  by_cases h : s.capture.len.toNat < 262
  · simp only [h, and_true, ← capByte_memWrite]
    exact capByte_congr (by simp [captureByte_capture, h]) (by simp) j
  · simp only [h, and_false, if_false]
    exact capByte_congr (by simp [captureByte_capture, h]) (by simp) j

/-- A command other than CLEAR and PUSH leaves the capture group and the host's side (R88, R89). -/
theorem exec_capture_host_unchanged {i : Instr} {s t : State} (hc : i ≠ .clear) (hp : ∀ b, i ≠ .push b)
    (h : exec i s = .next t) : t.capture = s.capture ∧ t.host = s.host := by
  cases i with
  | clear => exact absurd rfl hc
  | push b => exact absurd rfl (hp b)
  | nop => cases h; exact ⟨rfl, rfl⟩
  | validate => cases h; exact ⟨validate_capture s, validate_host s⟩
  | decodeBasic => cases h; exact ⟨decodeRecord_capture _ s, decodeRecord_host _ s⟩
  | decodeCells => cases h; exact ⟨decodeRecord_capture _ s, decodeRecord_host _ s⟩
  | decodeUnknown => cases h; exact ⟨decodeRecord_capture _ s, decodeRecord_host _ s⟩
  | parse => cases h; exact ⟨parse_capture s, parse_host s⟩

/-! ### What the read of the capture as a frame depends on -/

section congr

variable {s t : State} (hc : t.capture = s.capture) (hr : t.host.resets = s.host.resets)

include hc hr

theorem capByte_of_capture_eq (i : Nat) : capByte t i = capByte s i :=
  capByte_congr (by rw [hc]) hr i

theorem transmittedChecksum_congr : transmittedChecksum t = transmittedChecksum s := by
  simp only [transmittedChecksum, be16, capByte_of_capture_eq hc hr]

theorem computedChecksum_congr : computedChecksum t = computedChecksum s := by
  simp only [computedChecksum, capByte_of_capture_eq hc hr]
  rw [memRead_congr fun j _ _ => capByte_of_capture_eq hc hr j]

theorem latchedFrame_congr : latchedFrame t = latchedFrame s := by
  simp only [latchedFrame, capByte_of_capture_eq hc hr, transmittedChecksum_congr hc hr, computedChecksum_congr hc hr]

theorem validCapture_congr : ValidCapture t ↔ ValidCapture s := by
  simp only [ValidCapture, firstFailure_eq, hc, capByte_of_capture_eq hc hr, transmittedChecksum_congr hc hr,
    computedChecksum_congr hc hr]

end congr

/-- A valid capture carries the checksum that its bytes have (R168). -/
theorem ValidCapture.checksums_agree {s : State} (h : ValidCapture s) : transmittedChecksum s = computedChecksum s := by
  simp only [ValidCapture, firstFailure_eq] at h
  split_ifs at h with _ _ _ _ _ _ hsum
  exact not_not.mp hsum

/-! ### Sound groups -/

/-- The capture group is sound when it is empty, whatever bytes an older capture left in CAP_BUF (R34, R141). -/
theorem captureInv_of_empty {s : State} (hw : s.capture.buf.wf = true) (hl : s.capture.len = 0)
    (hlast : s.capture.last = 0) : CaptureInv s where
  wf := hw
  written i hi := by simp [hl] at hi
  emptyLast _ := hlast
  lastStored h := by simp [hl] at h

theorem CaptureInv.congr {s t : State} (h : CaptureInv s) (hc : t.capture = s.capture) : CaptureInv t where
  wf := hc ▸ h.wf
  written := hc ▸ h.written
  emptyLast := hc ▸ h.emptyLast
  lastStored := hc ▸ h.lastStored

/-- PUSH keeps the capture group sound: the counted bytes are those counted before and the new one (R142). -/
theorem captureInv_captureByte {s : State} (h : CaptureInv s) (b : Byte) : CaptureInv (captureByte b s) := by
  have hcap := captureByte_capture b s
  have hlen : (captureByte b s).capture.len.toNat = min (s.capture.len.toNat + 1) 0xFFFF := by
    rw [hcap, nextLen_toNat]
  have hne : (captureByte b s).capture.len ≠ 0 := fun h0 => by simp [h0] at hlen; omega
  by_cases hroom : s.capture.len.toNat < 262
  · have hbuf : (captureByte b s).capture.buf = s.capture.buf.write s.capture.len.toNat b := by
      simp [hcap, hroom]
    refine ⟨?_, fun i hi => ?_, fun h0 => ?_, fun _ _ => ?_⟩
    · rw [hbuf]; exact Memory.wf_write _ b h.wf hroom
    · rw [hbuf, Memory.read_write]
      split
      · rfl
      · exact h.written i (by omega)
    · exact absurd h0 hne
    · rw [hbuf, hlen, show min (s.capture.len.toNat + 1) 0xFFFF - 1 = s.capture.len.toNat by omega,
        Memory.read_write_self, hcap]
  · have hbuf : (captureByte b s).capture.buf = s.capture.buf := by simp [hcap, hroom]
    refine ⟨?_, fun i hi => ?_, fun h0 => ?_, fun _ _ => ?_⟩
    · rw [hbuf]; exact h.wf
    · rw [hbuf]; exact h.written i (by omega)
    · exact absurd h0 hne
    · omega

/-- The frame group of a capture that got no classification is sound (R171: steps 1 to 6). -/
theorem frameInv_of_unclassified {s : State} (hv : s.frame.valid = false) (hr : s.frame.rtype = .none)
    (hx : s.frame.csumRx = 0) (hy : s.frame.csumCalc = 0) : FrameInv s where
  describes h := by simp [hv] at h
  classified h := absurd hr h
  unreached _ := ⟨hx, hy⟩

theorem frameInv_of_cleared {s : State} (h : s.frame = .cleared) : FrameInv s :=
  frameInv_of_unclassified (by rw [h]; rfl) (by rw [h]; rfl) (by rw [h]; rfl) (by rw [h]; rfl)

/-- The frame group of a capture of an unknown type is sound (R171: step 7). -/
theorem frameInv_of_unknown {s : State} (hv : s.frame.valid = false) (hr : s.frame.rtype = classify s.frame.typeCode)
    (hd : s.frame.devStatus = 0) (hx : s.frame.csumRx = 0) (hy : s.frame.csumCalc = 0) : FrameInv s where
  describes h := by simp [hv] at h
  classified _ := ⟨hr, hd⟩
  unreached _ := ⟨hx, hy⟩

/-- The frame group latched from a capture that reached step 8 is sound when FRAME_VALID = 1 means that step 8 passed
(R168, R171). -/
theorem frameInv_of_latched {s t : State} (hc : t.capture = s.capture) (hr : t.host.resets = s.host.resets) (v : Bool)
    (hf : t.frame = { latchedFrame s with valid := v }) (hd : capByte s 2 = 0)
    (ht : classify (capByte s 1) ≠ .unknown) (hv : v = true → ValidCapture s) : FrameInv t where
  describes h := by
    rw [hf] at h
    obtain rfl : v = true := h
    rw [validCapture_congr hc hr, latchedFrame_congr hc hr]
    exact ⟨hv rfl, hf⟩
  classified _ := by rw [hf]; exact ⟨rfl, hd⟩
  unreached h := by
    rw [hf] at h
    exact absurd h (not_or.mpr ⟨classify_ne_none _, ht⟩)

theorem FrameInv.congr {s t : State} (h : FrameInv s) (hc : t.capture = s.capture)
    (hr : t.host.resets = s.host.resets) (hf : t.frame = s.frame) : FrameInv t where
  describes := by
    rw [hf, validCapture_congr hc hr, latchedFrame_congr hc hr]
    exact h.describes
  classified := hf ▸ h.classified
  unreached := hf ▸ h.unreached

/-- The fall of FRAME_VALID keeps the frame group sound, whatever the capture then holds (R142). -/
theorem FrameInv.invalidate {s t : State} (h : FrameInv s) (hf : t.frame = { s.frame with valid := false }) :
    FrameInv t where
  describes hv := by simp [hf] at hv
  classified := by rw [hf]; exact h.classified
  unreached := by rw [hf]; exact h.unreached

/-- The second gate of DECODE BASIC never fails on a sound frame group: the checksum field of the capture is the one that
VALIDATE computed (R209). -/
theorem FrameInv.checksum_field {s : State} (h : FrameInv s) (hv : s.frame.valid = true) :
    be16 s (4 + s.frame.payLen.toNat) = s.frame.csumCalc := by
  obtain ⟨hvalid, hframe⟩ := h.describes hv
  rw [hframe]
  exact hvalid.checksums_agree

theorem recordInv_of_cleared {s : State} (h : s.record = .cleared) : RecordInv s where
  noRecord _ := h
  basicRecord hk := by rw [h] at hk; cases hk
  cellRecord hk := by rw [h] at hk; cases hk

theorem RecordInv.congr {s t : State} (h : RecordInv s) (hc : t.capture = s.capture)
    (hr : t.host.resets = s.host.resets) (hf : t.frame = s.frame) (hq : t.record = s.record) : RecordInv t where
  noRecord := hq ▸ h.noRecord
  basicRecord := by
    rw [hq, hf, basicRecord_congr (le_refl 38) fun j _ _ => capByte_of_capture_eq hc hr j]
    exact h.basicRecord
  cellRecord := by
    rw [hq, hf, cellRecord_congr fun j _ _ => capByte_of_capture_eq hc hr j]
    exact h.cellRecord

/-- The result group is sound after a kind was recorded at its stage (R260) with the diagnostics of an OK both 0. -/
theorem resultInv_of_eq {s : State} {k : ResultKind} {st : Stage} {o e : Half} (h : s.result = ⟨k, st, o, e⟩)
    (hs : kindAtStage k st = true) (hok : k = .ok → o = 0 ∧ e = 0) : ResultInv s where
  stage := by rw [h]; exact hs
  okDiag := by rw [h]; exact hok

theorem resultInv_of_cleared {s : State} (h : s.result = .cleared) : ResultInv s :=
  resultInv_of_eq h rfl fun _ => ⟨rfl, rfl⟩

theorem ResultInv.congr {s t : State} (h : ResultInv s) (hq : t.result = s.result) : ResultInv t where
  stage := hq ▸ h.stage
  okDiag := hq ▸ h.okDiag

/-- A block whose registers are all cleared is sound, whatever bytes an older capture left (R57, R141). -/
theorem inv_of_cleared {s : State} (hw : s.capture.buf.wf = true) (hl : s.capture.len = 0) (hlast : s.capture.last = 0)
    (hf : s.frame = .cleared) (hq : s.record = .cleared) (hr : s.result = .cleared) : Inv s :=
  ⟨captureInv_of_empty hw hl hlast, frameInv_of_cleared hf, recordInv_of_cleared hq, resultInv_of_cleared hr⟩

end Sys2Proof.Machine
end

section
/-! PROOFS. The state (R30 to R57): the group clears, the reset values, the read port with its map, and a register read. -/

namespace Sys2Proof.Machine

/-! ### The read port (R51 to R53) -/

/-- Above the last record register only the window of R53 is left (R51). -/
theorem atAddress_of_ge {a : Nat} (h : 0x038 ≤ a) : Reg.atAddress a =
    if a < 0x100 then none else if hw : a - 0x100 < 262 then some (.capBuf ⟨a - 0x100, hw⟩) else none := by
  unfold Reg.atAddress
  rw [if_neg (by omega), dif_neg (by omega), dif_neg (by omega), if_neg (by omega), if_neg (by omega),
    if_neg (by omega), dif_neg (by omega), if_neg (by omega)]

/-- The register map read from both sides: at the address of a register stands that register (R51). -/
theorem atAddress_address (r : Reg) : Reg.atAddress r.address = some r := by
  cases r with
  | biTemp i => fin_cases i <;> rfl
  | biTrailer j => fin_cases j <;> rfl
  | cvCell i => fin_cases i <;> rfl
  | capBuf i =>
    simp only [Reg.address]
    rw [atAddress_of_ge (by omega), if_neg (by omega), dif_pos (by omega)]
    simp
  | _ => rfl

/-- No register stands at a reserved address (R51). -/
theorem atAddress_reserved {a : Nat}
    (h : (0x00E ≤ a ∧ a ≤ 0x00F) ∨ (0x02B ≤ a ∧ a ≤ 0x02F) ∨ (0x038 ≤ a ∧ a ≤ 0x0FF) ∨ 0x206 ≤ a) :
    Reg.atAddress a = none := by
  obtain ⟨h1, h2⟩ | ⟨h1, h2⟩ | ⟨h1, h2⟩ | h := h
  · interval_cases a <;> rfl
  · interval_cases a <;> rfl
  · rw [atAddress_of_ge h1, if_pos (by omega)]
  · rw [atAddress_of_ge (by omega), if_neg (by omega), dif_neg (by omega)]

theorem readPort_of_address {s : State} {a : BitVec 12} {r : Reg} (h : a.toNat = r.address) :
    readPort s a = r.value s := by
  simp only [readPort, h, atAddress_address]

theorem readPort_of_reserved {s : State} {a : BitVec 12} (h : Reg.atAddress a.toNat = none) : readPort s a = 0 := by
  simp only [readPort, h]

/-- The port does not look at what the host does next (log 3). -/
theorem readPort_setPending (s : State) (p : List HostAction) (a : BitVec 12) :
    readPort (setPending s p) a = readPort s a := by
  unfold readPort
  cases Reg.atAddress a.toNat with
  | none => rfl
  | some r => cases r <;> rfl

/-- The address of entry i of a register array, as a number. -/
theorem arrayAddress_toNat (base : BitVec 12) {i : Nat} (h : base.toNat + i < 4096) :
    (base + BitVec.ofNat 12 i).toNat = base.toNat + i := by
  rw [BitVec.toNat_add, BitVec.toNat_ofNat]
  omega

/-- FRAME_VALID reads as the number 1 or 0 (R39, R51). -/
theorem frameValid_value (s : State) : Reg.frameValid.value s = if s.frame.valid then 1 else 0 := by
  simp only [Reg.value]
  cases s.frame.valid <;> rfl

/-- Settles O15: each address through the register that stands there, each gap through the absence of one. -/
theorem readPortFollowsTheRegisterMap : Obligations.ReadPortFollowsTheRegisterMap := by
  intro s
  have row : ∀ {a : BitVec 12} (r : Reg), a.toNat = r.address → readPort s a = r.value s := fun _ => readPort_of_address
  exact ⟨row .capLen rfl, row .lastByte rfl, row .result rfl, row .resStage rfl, row .diagObs rfl, row .diagExp rfl,
    (row .frameValid rfl).trans (frameValid_value s), row .rtype rfl, row .typeCode rfl, row .devStatus rfl,
    row .payLen rfl, row .csumRx rfl, row .csumCalc rfl, row .recKind rfl,
    row .biTotalV rfl, row .biCurrent rfl, row .biRemainCap rfl, row .biNominalCap rfl, row .biCycles rfl,
    row .biDate rfl, row .biBalance rfl, row .biProtect rfl, row .biSwVer rfl, row .biSoc rfl, row .biFet rfl,
    row .biCells rfl, row .biNtcCount rfl, row .biTempCount rfl,
    fun i => row (.biTemp i) (arrayAddress_toNat 0x01E (by simp; omega)),
    fun j => row (.biTrailer j) (arrayAddress_toNat 0x021 (by simp; omega)),
    row .biCsum rfl, row .cvCount rfl,
    fun i => row (.cvCell i) (arrayAddress_toNat 0x031 (by simp; omega)),
    row .cvCsum rfl,
    fun i => row (.capBuf i) (arrayAddress_toNat 0x100 (by simp; omega)),
    fun a ha => readPort_of_reserved (atAddress_reserved ha)⟩

/-- Settles O9: the step is the read itself, and the port shows the same value once the host's list has moved on. -/
theorem registerReadChangesNoRegister : Obligations.RegisterReadChangesNoRegister := by
  intro s a rest h
  rw [step_of_pending_cons h]
  simp only [runAction, hostRead, readPort_setPending]
  rfl

/-! ### Reset and the group clears -/

/-- Settles O12: the reset state is written out in R57's own values. -/
theorem resetStateHoldsTheResetValues : Obligations.ResetStateHoldsTheResetValues :=
  ⟨rfl, rfl, rfl, rfl, rfl, rfl, rfl, rfl, rfl, rfl, rfl⟩

/-- Settles O14: each clear is one update of its own group. -/
theorem groupClearsWriteZero : Obligations.GroupClearsWriteZero :=
  fun _ => ⟨rfl, rfl⟩

end Sys2Proof.Machine
end

section
/-! PROOFS. The invariant of every run: it holds at reset and every action of the host keeps it. -/

namespace Sys2Proof.Machine

/-- Settles O56: at reset every register is cleared. -/
theorem resetMeetsTheInvariant : Obligations.ResetMeetsTheInvariant :=
  inv_of_cleared reset_memory_wf rfl rfl rfl rfl rfl

theorem inv_hardReset (s : State) : Inv (hardReset s) :=
  inv_of_cleared reset_memory_wf rfl rfl rfl rfl rfl

theorem inv_hostRead {s : State} (h : Inv s) (a : BitVec 12) : Inv (hostRead a s) :=
  ⟨h.capture.congr rfl, h.frame.congr rfl rfl rfl, h.record.congr rfl rfl rfl rfl, h.result.congr rfl⟩

theorem inv_raiseIllegal {s : State} (h : Inv s) (w : Half) : Inv (raiseIllegal w s) :=
  ⟨h.capture.congr rfl, h.frame.congr rfl rfl rfl, h.record.congr rfl rfl rfl rfl, resultInv_of_eq rfl rfl nofun⟩

theorem inv_push {s : State} (h : Inv s) (b : Byte) :
    Inv (clearRecord (setFrameValid (captureByte b s) false)) :=
  ⟨(captureInv_captureByte h.capture b).congr rfl, h.frame.invalidate (by simp), recordInv_of_cleared rfl,
    h.result.congr (by simp)⟩

/-- VALIDATE makes the frame and result groups sound from any state: one case per outcome of R171. -/
theorem validate_frameInv_resultInv (s : State) : FrameInv (validate s) ∧ ResultInv (validate s) := by
  rw [validate_eq]
  split_ifs with hlen hstart hend hsize hstatus htype hsum
  · exact ⟨frameInv_of_cleared rfl, resultInv_of_eq rfl rfl nofun⟩
  · exact ⟨frameInv_of_cleared rfl, resultInv_of_eq rfl rfl nofun⟩
  · exact ⟨frameInv_of_cleared rfl, resultInv_of_eq rfl rfl nofun⟩
  · exact ⟨frameInv_of_unclassified rfl rfl rfl rfl, resultInv_of_eq rfl rfl nofun⟩
  · exact ⟨frameInv_of_unclassified rfl rfl rfl rfl, resultInv_of_eq rfl rfl nofun⟩
  · exact ⟨frameInv_of_unknown rfl htype.symm (not_not.mp hstatus) rfl rfl, resultInv_of_eq rfl rfl nofun⟩
  · exact ⟨frameInv_of_latched (s := s) rfl rfl false rfl (not_not.mp hstatus) htype nofun,
      resultInv_of_eq rfl rfl nofun⟩
  · have hok : ValidCapture s := (firstFailure_eq s).trans (by
      rw [if_neg hlen, if_neg hstart, if_neg hend, if_neg hsize, if_neg hstatus, if_neg htype, if_neg hsum])
    exact ⟨frameInv_of_latched (s := s) rfl rfl true rfl (not_not.mp hstatus) htype fun _ => hok,
      resultInv_of_eq rfl rfl fun _ => ⟨rfl, rfl⟩⟩

theorem inv_validate {s : State} (h : Inv s) : Inv (validate s) := by
  obtain ⟨hframe, hresult⟩ := validate_frameInv_resultInv s
  exact ⟨h.capture.congr (validate_capture s), hframe, recordInv_of_cleared (validate_record s), hresult⟩

/-- A DECODE that fails leaves no record and raises a kind of its stage. -/
theorem inv_of_decode_failure {s : State} (h : Inv s) {k : ResultKind} (o e : Half)
    (hk : kindAtStage k .decode = true) (hok : k ≠ .ok) :
    Inv { s with record := .cleared, result := ⟨k, .decode, o, e⟩ } :=
  ⟨h.capture.congr rfl, h.frame.congr rfl rfl rfl, recordInv_of_cleared rfl,
    resultInv_of_eq rfl hk fun hk' => absurd hk' hok⟩

/-- A DECODE that succeeds leaves the record it names. -/
theorem inv_of_decode_success {s : State} (h : Inv s) (q : RecordRegs)
    (hq : RecordInv { s with record := q, result := ⟨.ok, .decode, 0, 0⟩ }) :
    Inv { s with record := q, result := ⟨.ok, .decode, 0, 0⟩ } :=
  ⟨h.capture.congr rfl, h.frame.congr rfl rfl rfl, hq, resultInv_of_eq rfl rfl fun _ => ⟨rfl, rfl⟩⟩

theorem inv_decodeRecord_basic {s : State} (h : Inv s) : Inv (decodeRecord .basic s) := by
  rw [decodeRecord_basic_eq]
  split_ifs with hvalid hsize hgate
  · exact inv_of_decode_failure h _ _ rfl nofun
  · exact inv_of_decode_failure h _ _ rfl nofun
  · exact absurd (h.frame.checksum_field (Bool.eq_true_of_not_eq_false hvalid)) hgate
  · have hpay : s.frame.payLen.toNat = 38 := not_not.mp hsize
    exact inv_of_decode_success h _
      ⟨nofun, fun _ => ⟨Bool.eq_true_of_not_eq_false hvalid, hpay, by rw [hpay]; rfl⟩, nofun⟩

theorem inv_decodeRecord_cells {s : State} (h : Inv s) : Inv (decodeRecord .cells s) := by
  rw [decodeRecord_cells_eq]
  split_ifs with hvalid hsize
  · exact inv_of_decode_failure h _ _ rfl nofun
  · exact inv_of_decode_failure h _ _ rfl nofun
  · have heven : s.frame.payLen.toNat % 2 = 0 := by omega
    have hmax : s.frame.payLen.toNat ≤ 12 := by omega
    exact inv_of_decode_success h _
      ⟨nofun, nofun, fun _ => ⟨Bool.eq_true_of_not_eq_false hvalid, heven, hmax, rfl⟩⟩

theorem inv_decodeRecord {s : State} (h : Inv s) (ty : ResponseType) : Inv (decodeRecord ty s) := by
  cases ty with
  | basic => exact inv_decodeRecord_basic h
  | cells => exact inv_decodeRecord_cells h
  | unknown => exact inv_of_decode_failure h _ _ rfl nofun

theorem inv_parse {s : State} (h : Inv s) : Inv (parse s) := by
  obtain hp | ⟨ty, hp⟩ := parse_eq_validate_or_decode s
  · exact hp ▸ inv_validate h
  · exact hp ▸ inv_decodeRecord (inv_validate h) ty

/-- Every command keeps the invariant. -/
theorem exec_keeps_inv {i : Instr} {s t : State} (h : Inv s) (he : exec i s = .next t) : Inv t := by
  cases i with
  | nop => cases he; exact h
  | clear => cases he; exact inv_of_cleared h.capture.wf rfl rfl rfl rfl rfl
  | push b => cases he; exact inv_push h b
  | validate => cases he; exact inv_validate h
  | decodeBasic => cases he; exact inv_decodeRecord h .basic
  | decodeCells => cases he; exact inv_decodeRecord h .cells
  | decodeUnknown => cases he; exact inv_decodeRecord h .unknown
  | parse => cases he; exact inv_parse h

/-- Every action of the host keeps the invariant. -/
theorem runAction_keeps_inv {a : HostAction} {s t : State} (h : Inv s) (ha : runAction a s = .next t) : Inv t := by
  cases a with
  | write w =>
    obtain ⟨i, -, hw⟩ | hw := runWord_cases w s
    · exact exec_keeps_inv h (hw.symm.trans ha)
    · cases hw.symm.trans ha
      exact inv_raiseIllegal h w
  | read a => cases ha; exact inv_hostRead h a
  | reset => cases ha; exact inv_hardReset s

/-- Settles O57, by the host's next action and then by its command. -/
theorem stepKeepsTheInvariant : Obligations.StepKeepsTheInvariant := by
  intro s t h hs
  cases hp : s.host.pending with
  | nil => cases (step_of_pending_nil hp).symm.trans hs; exact h
  | cons a rest => exact runAction_keeps_inv (inv_setPending h rest) ((step_of_pending_cons hp).symm.trans hs)

end Sys2Proof.Machine
end

section
/-! PROOFS. R34: the capture group holds the bytes pushed since it was last emptied. -/

namespace Sys2Proof.Machine

/-- The capture group holds exactly these bytes, oldest first, as far as CAP_LEN and CAP_BUF reach (R34). -/
structure HoldsPushed (bs : List Byte) (s : State) : Prop where
  len : s.capture.len.toNat = min bs.length 0xFFFF
  bytes : ∀ j b, j < 262 → bs[j]? = some b → capByte s j = b
  last : ∀ b, bs.getLast? = some b → s.capture.last = b

/-- An empty capture holds no byte. -/
theorem holdsPushed_nil {s : State} (h : s.capture.len = 0) : HoldsPushed [] s :=
  ⟨by rw [h]; rfl, nofun, nofun⟩

theorem HoldsPushed.congr {bs : List Byte} {s t : State} (h : HoldsPushed bs s) (hc : t.capture = s.capture)
    (hh : t.host = s.host) : HoldsPushed bs t where
  len := hc ▸ h.len
  bytes j b hj hb := (capByte_of_capture_eq hc (by rw [hh]) j).trans (h.bytes j b hj hb)
  last := hc ▸ h.last

/-- PUSH appends its byte: while the buffer has room, CAP_LEN is the count of bytes and so the index it writes; when it has
none, no index below 262 is the new byte's. -/
theorem HoldsPushed.after_push {bs : List Byte} {s : State} (h : HoldsPushed bs s) (b : Byte) :
    HoldsPushed (bs ++ [b]) (clearRecord (setFrameValid (captureByte b s) false)) where
  len := by
    simp only [clearRecord_capture, setFrameValid_capture, captureByte_capture, nextLen_toNat, h.len, List.length_append,
      List.length_singleton]
    omega
  bytes j c hj hc := by
    have hlen := h.len
    rw [capByte_clearRecord, capByte_setFrameValid, capByte_captureByte]
    obtain hlt | rfl | hgt := lt_trichotomy j bs.length
    · rw [List.getElem?_append_left hlt] at hc
      rw [if_neg (by omega)]
      exact h.bytes j c hj hc
    · rw [List.getElem?_concat_length] at hc
      rw [if_pos (by omega)]
      exact Option.some.inj hc
    · rw [List.getElem?_eq_none (by simp; omega)] at hc
      cases hc
  last c hc := by
    rw [List.getLast?_concat] at hc
    simpa [captureByte_capture] using hc

/-- Every command but CLEAR appends the bytes it pushes. -/
theorem HoldsPushed.after_exec {bs : List Byte} {i : Instr} {s t : State} (h : HoldsPushed bs s) (hi : i ≠ .clear)
    (he : exec i s = .next t) : HoldsPushed (bs ++ pushedBytes [i]) t := by
  cases i with
  | push b => cases he; exact h.after_push b
  | clear => exact absurd rfl hi
  | _ =>
    obtain ⟨hc, hh⟩ := exec_capture_host_unchanged hi nofun he
    simpa [pushedBytes] using h.congr hc hh

theorem pushedBytes_cons (i : Instr) (is : List Instr) : pushedBytes (i :: is) = pushedBytes [i] ++ pushedBytes is := by
  cases i <;> rfl

/-- Commands other than CLEAR run to an end and append the bytes they push. -/
theorem HoldsPushed.after_execAll {cmds : List Instr} {bs : List Byte} {s : State} (h : HoldsPushed bs s)
    (hcmds : ∀ i ∈ cmds, i ≠ .clear) : ∃ t, execAll cmds s = .next t ∧ HoldsPushed (bs ++ pushedBytes cmds) t := by
  induction cmds generalizing bs s with
  | nil => exact ⟨s, rfl, by simpa [pushedBytes] using h⟩
  | cons i is ih =>
    obtain ⟨u, hu⟩ := exists_exec_eq_next i s
    obtain ⟨t, ht, hold⟩ := ih (h.after_exec (hcmds i (List.mem_cons_self ..)) hu)
      fun j hj => hcmds j (List.mem_cons_of_mem i hj)
    refine ⟨t, ?_, ?_⟩
    · simp only [execAll, hu, ht]
    · rwa [pushedBytes_cons, ← List.append_assoc]

/-- Settles O29: CLEAR and the reset both empty the capture, and every later command appends the bytes it pushes. -/
theorem captureHoldsThePushedBytes : Obligations.CaptureHoldsThePushedBytes := by
  intro s cmds hcmds start hstart
  obtain ⟨u, hempty, rfl⟩ : ∃ u : State, u.capture.len = 0 ∧ start = execAll cmds u := by
    simp only [List.mem_cons, List.not_mem_nil, or_false] at hstart
    obtain rfl | rfl := hstart
    · exact ⟨_, rfl, rfl⟩
    · exact ⟨hardReset s, rfl, rfl⟩
  obtain ⟨t, ht, hold⟩ := (holdsPushed_nil hempty).after_execAll hcmds
  rw [List.nil_append] at hold
  exact ⟨t, ht, hold.len, hold.bytes, hold.last⟩

end Sys2Proof.Machine
end

section
/-! PROOFS. The byte memory (R82 to R89): byte assembly, the signed reading, which commands write the capture buffer, and
the step that runs a command. -/

namespace Sys2Proof.Machine

/-! ### Byte assembly (R82 to R85) -/

/-- A byte joined below any value, as a number. -/
theorem append_byte_toNat {n : Nat} (x : BitVec n) (b : Byte) : (x ++ b).toNat = x.toNat * 256 + b.toNat := by
  rw [BitVec.toNat_append, ← Nat.shiftLeft_add_eq_or_of_lt b.isLt, Nat.shiftLeft_eq]

theorem be16_toNat (s : State) (i : Nat) :
    (be16 s i).toNat = (capByte s i).toNat * 256 + (capByte s (i + 1)).toNat :=
  append_toNat _ _

/-- The four bytes in Horner's form, most significant first (R83). -/
theorem be32_toNat (s : State) (i : Nat) : (be32 s i).toNat =
    (((capByte s i).toNat * 256 + (capByte s (i + 1)).toNat) * 256 + (capByte s (i + 2)).toNat) * 256
      + (capByte s (i + 3)).toNat := by
  unfold be32
  rw [append_byte_toNat, append_byte_toNat, append_byte_toNat]

/-- Settles O17: the assembled values as numbers, and the raw pair by the two values of the open byte order (log 1). -/
theorem byteAssemblyFunctions : Obligations.ByteAssemblyFunctions := by
  intro s i
  refine ⟨be16_toNat s i, be32_toNat s i, ?_⟩
  unfold native16
  cases Config.hostByteOrder with
  | little => rfl
  | big => rfl

/-! ### The signed reading (R84) -/

theorem s16_eq_toInt (v : Half) : s16 v = v.toInt := by
  unfold s16
  rw [BitVec.toInt_eq_toNat_cond]
  split_ifs <;> omega

/-- Settles O18: the range is that of every 16-bit two's-complement value. -/
theorem signedReadingIsTwosComplement : Obligations.SignedReadingIsTwosComplement := by
  intro v
  have hlo : -2 ^ 15 ≤ v.toInt := BitVec.le_toInt v
  have hhi : v.toInt < 2 ^ 15 := BitVec.toInt_lt
  rw [s16_eq_toInt]
  omega

/-! ### What each command writes of the capture group (R88, R89) -/

/-- CLEAR zeroes CAP_LEN and LAST_BYTE, and leaves CAP_BUF and the host's side (R141). -/
theorem execClear_capture_host {s t : State} (h : execClear s = .next t) :
    t.capture = ⟨s.capture.buf, 0, 0⟩ ∧ t.host = s.host := by
  cases h
  exact ⟨rfl, rfl⟩

/-- PUSH leaves every byte but the one at index CAP_LEN, and the host's side (R142). -/
theorem execPush_other_bytes_host {b : Byte} {s t : State} (h : execPush b s = .next t) :
    (∀ a, ¬(s.capture.len.toNat < 262 ∧ a = s.capture.len.toNat) → capByte t a = capByte s a) ∧ t.host = s.host := by
  cases h
  refine ⟨fun a ha => ?_, by simp⟩
  rw [capByte_clearRecord, capByte_setFrameValid, capByte_captureByte, if_neg fun hw => ha hw.symm]

/-- Settles O28: PUSH and CLEAR by what each writes, every other command by its leaving the capture group whole. -/
theorem onlyPushWritesCaptureBytes : Obligations.OnlyPushWritesCaptureBytes := by
  intro i s t h
  cases i with
  | push b =>
    obtain ⟨hbytes, hhost⟩ := execPush_other_bytes_host h
    exact ⟨fun a ha => hbytes a (ha b rfl), fun hp => absurd rfl (hp b), hhost⟩
  | clear =>
    obtain ⟨hcap, hhost⟩ := execClear_capture_host h
    have hbuf : t.capture.buf = s.capture.buf := by rw [hcap]
    exact ⟨fun a _ => capByte_congr hbuf (by rw [hhost]) a, fun _ => ⟨hbuf, fun hc => absurd rfl hc⟩, hhost⟩
  | _ =>
    obtain ⟨hcap, hhost⟩ := exec_capture_host_unchanged (by nofun) (by nofun) h
    exact ⟨fun a _ => capByte_of_capture_eq hcap (by rw [hhost]) a, fun _ => by simp [hcap], hhost⟩

/-! ### The step that runs a command (R92, R100) -/

/-- A legal word runs its command (R101). -/
theorem runWord_of_decode {w : Half} {i : Instr} (h : decode w = .ok i) (s : State) : runWord w s = exec i s := by
  simp only [runWord, h]

/-- Settles O6: the step takes the write off the host's list, and the write runs the command it decodes to. -/
theorem stepRunsTheDecodedCommand : Obligations.StepRunsTheDecodedCommand := by
  intro s w rest i hpending hdecode
  calc step s = runAction (.write w) (setPending s rest) := step_of_pending_cons hpending
    _ = exec i (setPending s rest) := runWord_of_decode hdecode _

end Sys2Proof.Machine
end

section
/-! PROOFS. The encoding (R100 to R117): the decoder inverts the encoder, the words it accepts, what a word it refuses does,
LOADFRAME's words, the codes of the coded registers, and the checksum of a request frame. -/

namespace Sys2Proof

/-! ### The decoder inverts the encoder (R100 to R102) -/

/-- A command without an operand has ARG 0x00 alone (R102). -/
theorem decodePlain_eq_ok_iff {i j : Instr} {op arg : Byte} : decodePlain i op arg = .ok j ↔ arg = 0 ∧ i = j := by
  unfold decodePlain
  by_cases h : arg = 0
  · rw [if_pos h, Except.ok.injEq, and_iff_right h]
  · rw [if_neg h]
    exact ⟨nofun, fun hj => absurd hj.1 h⟩

/-- DECODE's operand names its command (R102, R112). -/
theorem fields_of_decodeType {arg : Byte} {i : Instr} (h : decodeType arg = .ok i) :
    i.opcode = 0x04 ∧ i.argument = arg := by
  unfold decodeType at h
  split_ifs at h with h1 h2 h3 <;> cases h
  · exact ⟨rfl, h1.symm⟩
  · exact ⟨rfl, h2.symm⟩
  · exact ⟨rfl, h3.symm⟩

/-- The opcode map keeps both fields of the word (R101). -/
theorem fields_of_decodeFields {op arg : Byte} {i : Instr} (h : decodeFields op arg = .ok i) :
    i.opcode = op ∧ i.argument = arg := by
  have plain {j : Instr} (hj : j.opcode = op) (h0 : j.argument = 0) (hd : decodePlain j op arg = .ok i) :
      i.opcode = op ∧ i.argument = arg := by
    obtain ⟨harg, rfl⟩ := decodePlain_eq_ok_iff.1 hd
    exact ⟨hj, h0.trans harg.symm⟩
  unfold decodeFields at h
  split_ifs at h with hnop hclear hpush hvalidate hdecode hparse
  · exact plain (j := .nop) hnop.symm rfl h
  · exact plain (j := .clear) hclear.symm rfl h
  · cases h
    exact ⟨hpush.symm, rfl⟩
  · exact plain (j := .validate) hvalidate.symm rfl h
  · obtain ⟨hop, harg⟩ := fields_of_decodeType h
    exact ⟨hop.trans hdecode.symm, harg⟩
  · exact plain (j := .parse) hparse.symm rfl h

theorem decodeFields_eq_ok_iff {op arg : Byte} {i : Instr} :
    decodeFields op arg = .ok i ↔ i.opcode = op ∧ i.argument = arg := by
  refine ⟨fields_of_decodeFields, ?_⟩
  rintro ⟨rfl, rfl⟩
  cases i <;> rfl

/-- A command's word is the word with the command's two fields (R100). -/
theorem encode_eq_iff {i : Instr} {w : Half} : encode i = w ↔ i.opcode = opField w ∧ i.argument = argField w := by
  constructor
  · rintro rfl
    exact ⟨(opField_append _ _).symm, (argField_append _ _).symm⟩
  · rintro ⟨hop, harg⟩
    rw [encode, hop, harg, fields_append]

/-- The decoder and the encoder are inverse to each other (R100, R101). -/
theorem decode_eq_ok_iff {w : Half} {i : Instr} : decode w = .ok i ↔ encode i = w :=
  decodeFields_eq_ok_iff.trans encode_eq_iff.symm

theorem decode_encode (i : Instr) : decode (encode i) = .ok i := decode_eq_ok_iff.2 rfl

/-- Settles O1: the decoder inverts the encoder; no command has an illegal operand (R102). -/
theorem decodeOfEncodeIsTheCommand : Obligations.DecodeOfEncodeIsTheCommand :=
  fun i => ⟨by cases i <;> rfl, decode_encode i⟩

/-- Settles O2: the other half of the same equivalence. -/
theorem decodedWordIsItsEncoding : Obligations.DecodedWordIsItsEncoding :=
  fun _ _ => decode_eq_ok_iff.1

/-- Settles O4: each of the words is the encoding of its command. -/
theorem sampleWordsDecode : Obligations.SampleWordsDecode :=
  ⟨decode_encode .nop, decode_encode .clear, decode_encode (.push 0xDD), decode_encode .validate,
    decode_encode .decodeBasic, decode_encode .decodeCells, decode_encode .decodeUnknown, decode_encode .parse⟩

/-! ### The words of the opcode table (R101) -/

/-- Every command's word is of its own row, by the table's lemma for its constructor. -/
theorem encodeRow_statement : (i : Instr) → Laws.EncodeRow.Statement i
  | .nop => Laws.EncodeRow.nop
  | .clear => Laws.EncodeRow.clear
  | .push b => Laws.EncodeRow.push b
  | .validate => Laws.EncodeRow.validate
  | .decodeBasic => Laws.EncodeRow.decodeBasic
  | .decodeCells => Laws.EncodeRow.decodeCells
  | .decodeUnknown => Laws.EncodeRow.decodeUnknown
  | .parse => Laws.EncodeRow.parse

/-- A row that fixes all 16 bits covers one word. -/
theorem covers_of_full_mask {p w : Half} : (OpcodeRow.mk p 0xFFFF).covers w = true ↔ w = p := by
  have hmask : w &&& 0xFFFF = w := BitVec.and_allOnes
  simp only [OpcodeRow.covers, hmask, beq_iff_eq]

/-- A row that fixes OP alone covers the words with that OP. -/
theorem covers_of_op_mask {op : Byte} {w : Half} :
    (OpcodeRow.mk (op ++ (0 : Byte)) 0xFF00).covers w = true ↔ opField w = op := by
  have hmask : w &&& 0xFF00 = opField w ++ (0 : Byte) :=
    calc w &&& 0xFF00 = (opField w ++ argField w) &&& ((0xFF : Byte) ++ (0 : Byte)) := by rw [fields_append]; rfl
      _ = (opField w &&& BitVec.allOnes 8) ++ (argField w &&& 0#8) := BitVec.and_append
      _ = opField w ++ (0 : Byte) := by rw [BitVec.and_allOnes, BitVec.and_zero]; rfl
  simp only [OpcodeRow.covers, hmask, beq_iff_eq]
  exact ⟨fun h => (append_inj h).1, fun h => by rw [h]⟩

/-- The table's rows are one command's word each, and PUSH's row. -/
theorem opcodeTable_rows {r : OpcodeRow} (h : r ∈ opcodeTable) :
    (∃ i, r = ⟨encode i, 0xFFFF⟩) ∨ r = ⟨(0x02 : Byte) ++ (0 : Byte), 0xFF00⟩ := by
  simp only [opcodeTable, List.mem_cons, List.not_mem_nil, or_false] at h
  obtain rfl | rfl | rfl | rfl | rfl | rfl | rfl | rfl := h
  · exact .inl ⟨.nop, rfl⟩
  · exact .inl ⟨.clear, rfl⟩
  · exact .inr rfl
  · exact .inl ⟨.validate, rfl⟩
  · exact .inl ⟨.decodeBasic, rfl⟩
  · exact .inl ⟨.decodeCells, rfl⟩
  · exact .inl ⟨.decodeUnknown, rfl⟩
  · exact .inl ⟨.parse, rfl⟩

/-- The words of the table are the words of the commands (R101). -/
theorem exists_encode_eq_iff_covered {w : Half} :
    (∃ i, encode i = w) ↔ ∃ r ∈ opcodeTable, r.covers w = true := by
  constructor
  · rintro ⟨i, rfl⟩
    obtain ⟨hmem, hcovers, -⟩ := encodeRow_statement i
    exact ⟨i.row, hmem, (hcovers _ hmem).2 rfl⟩
  · rintro ⟨r, hmem, hcovers⟩
    obtain ⟨i, rfl⟩ | rfl := opcodeTable_rows hmem
    · exact ⟨i, (covers_of_full_mask.1 hcovers).symm⟩
    · exact ⟨.push (argField w), encode_eq_iff.2 ⟨(covers_of_op_mask.1 hcovers).symm, rfl⟩⟩

/-! ### The checks on the two fields (R103) -/

/-- The three checks of R103, on numbers. -/
theorem rawCommand_wellFormed_iff {c : RawCommand} : c.wellFormed = true ↔
    c.op.toNat ≤ 0x05 ∧
    (c.op.toNat = 0x00 ∨ c.op.toNat = 0x01 ∨ c.op.toNat = 0x03 ∨ c.op.toNat = 0x05 → c.arg.toNat = 0) ∧
    (c.op.toNat = 0x04 → 1 ≤ c.arg.toNat ∧ c.arg.toNat ≤ 3) := by
  have hzero : c.arg = 0 ↔ c.arg.toNat = 0 := BitVec.toNat_inj.symm
  simp only [RawCommand.wellFormed, RawCommand.opDefined, RawCommand.argZeroWhereRequired, RawCommand.decodeTypeLegal,
    Bool.and_eq_true, decide_eq_true_eq, List.mem_cons, List.not_mem_nil, or_false, hzero, and_assoc]

/-- Every command's fields pass the three checks. -/
theorem wellFormed_fields (i : Instr) : (RawCommand.mk i.opcode i.argument).wellFormed = true := by
  cases i <;> rfl

/-- Fields that pass the three checks are a command's, found by OP and then by DECODE's operand. -/
theorem exists_fields_eq_of_wellFormed {c : RawCommand} (h : c.wellFormed = true) :
    ∃ i : Instr, i.opcode = c.op ∧ i.argument = c.arg := by
  obtain ⟨hop, hzero, htype⟩ := rawCommand_wellFormed_iff.1 h
  have byte {a b : Byte} (hab : b.toNat = a.toNat) : a = b := BitVec.eq_of_toNat_eq hab.symm
  have hops : c.op.toNat = 0 ∨ c.op.toNat = 1 ∨ c.op.toNat = 2 ∨ c.op.toNat = 3 ∨ c.op.toNat = 4 ∨ c.op.toNat = 5 := by
    omega
  obtain hc | hc | hc | hc | hc | hc := hops
  · exact ⟨.nop, byte hc, byte (hzero (by omega))⟩
  · exact ⟨.clear, byte hc, byte (hzero (by omega))⟩
  · exact ⟨.push c.arg, byte hc, rfl⟩
  · exact ⟨.validate, byte hc, byte (hzero (by omega))⟩
  · have hargs : c.arg.toNat = 1 ∨ c.arg.toNat = 2 ∨ c.arg.toNat = 3 := by
      have := htype hc
      omega
    obtain ha | ha | ha := hargs
    · exact ⟨.decodeBasic, byte hc, byte ha⟩
    · exact ⟨.decodeCells, byte hc, byte ha⟩
    · exact ⟨.decodeUnknown, byte hc, byte ha⟩
  · exact ⟨.parse, byte hc, byte (hzero (by omega))⟩

/-- The words that pass the three checks are the words of the commands (R101, R103). -/
theorem exists_encode_eq_iff_wellFormed {w : Half} :
    (∃ i, encode i = w) ↔ (rawCommand w).wellFormed = true := by
  constructor
  · rintro ⟨i, rfl⟩
    simpa [rawCommand, encode] using wellFormed_fields i
  · intro h
    obtain ⟨i, hfields⟩ := exists_fields_eq_of_wellFormed h
    exact ⟨i, encode_eq_iff.2 hfields⟩

/-- Settles O3: all three say that the word is some command's. -/
theorem decoderAcceptsExactlyTheTable : Obligations.DecoderAcceptsExactlyTheTable := by
  intro w
  simp only [decode_eq_ok_iff]
  exact ⟨exists_encode_eq_iff_covered, exists_encode_eq_iff_wellFormed⟩

end Sys2Proof

namespace Sys2Proof.Machine

/-! ### Reserved and illegal words (R103) -/

/-- A word whose fields fail a check of R103 raises IllegalCommand. -/
theorem runWord_of_not_wellFormed {w : Half} (h : (rawCommand w).wellFormed ≠ true) (s : State) :
    runWord w s = .next (raiseIllegal w s) := by
  obtain ⟨i, hdecode, -⟩ | hraise := runWord_cases w s
  · exact absurd (exists_encode_eq_iff_wellFormed.1 ⟨i, decode_eq_ok_iff.1 hdecode⟩) h
  · exact hraise

/-- Settles O7: a word of the three ranges fails a check of R103, and the step that takes it raises IllegalCommand. -/
theorem illegalWordRaisesIllegalCommand : Obligations.IllegalWordRaisesIllegalCommand := by
  intro s w rest hpending hrange
  have hillegal : (rawCommand w).wellFormed ≠ true := by
    simp only [Ne, rawCommand_wellFormed_iff, rawCommand, opField_toNat, argField_toNat]
    omega
  calc step s = runAction (.write w) (setPending s rest) := step_of_pending_cons hpending
    _ = .next (raiseIllegal w (setPending s rest)) := runWord_of_not_wellFormed hillegal _

/-! ### LOADFRAME (R117) -/

/-- PUSH's word is its byte below OP 0x02 (R100, R101). -/
theorem encode_push (b : Byte) : encode (.push b) = 0x0200 ||| b.setWidth 16 :=
  calc (0x02 : Byte) ++ b = ((0x02 : Byte) ||| 0) ++ ((0 : Byte) ||| b) := by simp
    _ = ((0x02 : Byte) ++ (0 : Byte)) ||| ((0 : Byte) ++ b) := BitVec.or_append.symm
    _ = 0x0200 ||| b.setWidth 16 := by rw [BitVec.setWidth_eq_append (by omega)]; rfl

/-- Settles O5: the words of CLEAR and of each PUSH. -/
theorem loadFrameIsClearThenPushes : Obligations.LoadFrameIsClearThenPushes := by
  intro bs
  have hclear : encode .clear = 0x0100 := rfl
  simp [loadFrame, hclear, encode_push]

/-! ### The codes of the coded registers (R112 to R115) -/

/-- The result kinds in the order of their codes (R114). -/
def resultKinds : List ResultKind :=
  [.ok, .incompleteFrame, .invalidStartByte, .invalidEndByte, .lengthMismatch, .deviceStatusError,
    .unknownResponseType, .checksumMismatch, .unsupportedType, .recordSizeMismatch, .notValidated, .illegalCommand]

/-- A result kind stands at its own code. -/
theorem resultKinds_getElem?_code (k : ResultKind) : resultKinds[k.code.toNat]? = some k := by
  cases k <;> rfl

theorem ResultKind.code_injective {k l : ResultKind} (h : k.code = l.code) : k = l := by
  have hk := resultKinds_getElem?_code k
  rw [h, resultKinds_getElem?_code l] at hk
  exact (Option.some.inj hk).symm

theorem ResultKind.code_le (k : ResultKind) : k.code.toNat ≤ 0x0B := by
  obtain ⟨hlt, -⟩ := List.getElem?_eq_some_iff.1 (resultKinds_getElem?_code k)
  exact Nat.le_of_lt_succ hlt

/-- Settles O16: the tables by evaluation; a code names its kind by the table of R114, so no two kinds share one. -/
theorem codedRegistersHaveTheirCodes : Obligations.CodedRegistersHaveTheirCodes :=
  ⟨rfl, rfl, rfl, rfl, fun _ _ => ResultKind.code_injective, ResultKind.code_le, fun k => by cases k <;> decide⟩

/-! ### Request frames (R108, R109) -/

@[simp] theorem wire16_append (a b : Byte) : wire16 (a ++ b) = [a, b] :=
  congrArg₂ (fun x y => [x, y]) (opField_append a b) (argField_append a b)

/-- The checksum of a request of a type that is not 0: its type negated, with a borrow into the high byte (R109). -/
theorem checksum_request {ty : Byte} (h : ty ≠ 0) : checksum ty 0 [] = (0xFF : Byte) ++ (0 - ty) := by
  have hty : ty.toNat ≠ 0 := fun h0 => h (BitVec.eq_of_toNat_eq h0)
  have hneg : checksum ty 0 [] = 0 - zext16 ty := by
    simp [checksum, checksumSum, zext16, BitVec.neg_eq_not_add]
  apply BitVec.eq_of_toNat_eq
  rw [hneg, append_toNat]
  simp [zext16]
  omega

/-- The low byte `0x100 - type` (R109) as a byte. -/
theorem ofNat_sub_toNat (ty : Byte) : BitVec.ofNat 8 (0x100 - ty.toNat) = 0 - ty := by
  bv_omega

/-- Settles O24: bytes 4 and 5 of a request are 0xFF and the negated type, which is its checksum on the wire. -/
theorem requestFramesCarryTheirChecksum : Obligations.RequestFramesCarryTheirChecksum := by
  refine ⟨fun ty hty => ?_, rfl, rfl⟩
  rw [checksum_request hty, wire16_append, ofNat_sub_toNat]
  exact ⟨rfl, rfl⟩

end Sys2Proof.Machine
end

section
/-! PROOFS. The capture commands (R140 to R143): what NOP, CLEAR and PUSH do to every register, and why a capture longer
than CAP_BUF is never a frame. -/

namespace Sys2Proof.Machine

/-! ### NOP, CLEAR, PUSH (R140 to R142) -/

/-- Settles O25: NOP's meaning is its start state. -/
theorem nopChangesNothing : Obligations.NopChangesNothing :=
  ⟨rfl, fun _ => rfl⟩

/-- Settles O26: CLEAR writes every group but CAP_BUF, and each value it writes is the reset value. -/
theorem clearResetsAllButTheCaptureBytes : Obligations.ClearResetsAllButTheCaptureBytes :=
  ⟨rfl, fun _ => ⟨rfl, rfl⟩⟩

/-- Settles O27: `captureByte` writes the capture group alone; the fall of FRAME_VALID and the record clear one group each. -/
theorem pushAppendsOneByte : Obligations.PushAppendsOneByte := by
  intro b s
  refine ⟨encode_push b, _, rfl, fun a => ?bytes, ?last, ?len, ?frame, rfl, ?result, ?host⟩
  case bytes => rw [capByte_clearRecord, capByte_setFrameValid, capByte_captureByte]
  case last => rw [clearRecord_capture, setFrameValid_capture, captureByte_capture]
  case len =>
    rw [clearRecord_capture, setFrameValid_capture, captureByte_capture, nextLen_toNat]
    split_ifs <;> omega
  case frame => rw [clearRecord_frame, setFrameValid_frame, captureByte_frame]
  case result => rw [clearRecord_result, setFrameValid_result, captureByte_result]
  case host => rw [clearRecord_host, setFrameValid_host, captureByte_host]

/-! ### Captures longer than the buffer (R143) -/

/-- No declared length makes a frame longer than CAP_BUF (R6, R107). -/
theorem frameLength_le (n : Byte) : frameLength n ≤ 262 := by
  have hn := n.isLt
  unfold frameLength
  omega

/-- Settles O39: step 1 passes and step 5 cannot, so the capture fails at step 2, 3 or 5. -/
theorem overlongCaptureNeverValidates : Obligations.OverlongCaptureNeverValidates := by
  intro s hlong
  have hcomplete : ¬ s.capture.len.toNat < 7 := by omega
  have hsize : s.capture.len.toNat ≠ frameLength (capByte s 3) := by
    have := frameLength_le (capByte s 3)
    omega
  refine ⟨validate s, rfl, ?_⟩
  rw [validate_eq, if_neg hcomplete, if_pos hsize]
  split_ifs with hstart hend
  · exact ⟨rfl, .inl rfl⟩
  · exact ⟨rfl, .inr (.inl rfl)⟩
  · exact ⟨rfl, .inr (.inr rfl)⟩

end Sys2Proof.Machine
end

section
/-! PROOFS. VALIDATE (R160 to R177): each step's outcome, the first failing step, what a repeated command gives, and the two
captures that are no valid frame: one with a flipped payload bit, and a request. -/

namespace Sys2Proof.Machine

/-! ### Steps 1 to 8 (R161 to R169) -/

theorem frameLength_eq (n : Byte) : frameLength n = 7 + n.toNat := by
  unfold frameLength
  omega

/-- Settles O30: the first branch of VALIDATE. -/
theorem validateRejectsAShortCapture : Obligations.ValidateRejectsAShortCapture := by
  intro s hshort
  refine congrArg Host.Outcome.next ?_
  rw [validate_eq, if_pos hshort]

/-- Settles O31: step 1 passes and step 2 fails; the invariant says that every byte below CAP_LEN was written. -/
theorem validateRejectsAWrongStartByte : Obligations.ValidateRejectsAWrongStartByte := by
  intro s hlen
  refine ⟨fun hstart => congrArg Host.Outcome.next ?_, fun hinv => ?_⟩
  · rw [validate_eq, if_neg (by omega), if_pos hstart]
    rfl
  · obtain ⟨b, hb⟩ := Option.isSome_iff_exists.1 (hinv.written 0 (by omega))
    exact ⟨b, hb, capByte_of_read hb⟩

/-- On a sound capture of at most 262 bytes LAST_BYTE is the byte at the captured end (R33). -/
theorem CaptureInv.last_eq {s : State} (h : CaptureInv s) (h0 : 0 < s.capture.len.toNat)
    (hmax : s.capture.len.toNat ≤ 262) : s.capture.last = capByte s (s.capture.len.toNat - 1) :=
  (capByte_of_read (h.lastStored h0 hmax)).symm

/-- Settles O32: steps 1 and 2 pass and step 3 fails; the captured end is index 6 + N when CAP_LEN is 7 + N. -/
theorem validateRejectsAWrongEndByte : Obligations.ValidateRejectsAWrongEndByte := by
  intro s
  refine ⟨fun hlen hstart hend => congrArg Host.Outcome.next ?_, fun hinv hlen hmax => ?_⟩
  · rw [validate_eq, if_neg (by omega), if_neg (not_not.2 hstart), if_pos hend]
    rfl
  · have hlast := hinv.last_eq (by omega) hmax
    refine ⟨hlast, fun hsize => ?_⟩
    rwa [show s.capture.len.toNat - 1 = 6 + (capByte s 3).toNat by omega] at hlast

/-- Settles O33: steps 1 to 3 pass and step 5 fails. -/
theorem validateRejectsAWrongLength : Obligations.ValidateRejectsAWrongLength := by
  intro s hlen hstart hend (hsize : s.capture.len.toNat ≠ frameLength (capByte s 3))
  refine congrArg Host.Outcome.next ?_
  rw [validate_eq, if_neg (by omega), if_neg (not_not.2 hstart), if_neg (not_not.2 hend), if_pos hsize, frameLength_eq]

/-- Settles O34: steps 1 to 5 pass and step 6 fails; a wrong length is O33's case, whatever the status byte. -/
theorem validateReportsADeviceFault : Obligations.ValidateReportsADeviceFault := by
  intro s hlen hstart hend hstatus
  refine ⟨fun (hsize : s.capture.len.toNat = frameLength (capByte s 3)) => congrArg Host.Outcome.next ?_,
    fun hsize => ⟨_, validateRejectsAWrongLength s hlen hstart hend hsize, rfl⟩⟩
  rw [validate_eq, if_neg (by omega), if_neg (not_not.2 hstart), if_neg (not_not.2 hend), if_neg (not_not.2 hsize),
    if_pos hstatus]
  rfl

/-- DECODE BASIC and DECODE CELLS of a capture that is not validated, with no record left to clear (R192). -/
theorem exec_decode_of_not_valid {s : State} (hv : s.frame.valid = false) (hq : s.record = .cleared) :
    exec .decodeBasic s = .next (s.raise .decode .notValidated 0 0) ∧
    exec .decodeCells s = .next (s.raise .decode .notValidated 0 0) := by
  have hraise : { s with record := .cleared, result := ⟨.notValidated, .decode, 0, 0⟩ } =
      s.raise .decode .notValidated 0 0 := by
    rw [← hq]
    rfl
  constructor
  · refine congrArg Host.Outcome.next ?_
    rw [decodeRecord_basic_eq, if_pos hv, hraise]
  · refine congrArg Host.Outcome.next ?_
    rw [decodeRecord_cells_eq, if_pos hv, hraise]

/-- Settles O35: steps 1 to 6 pass and step 7 fails, which leaves FRAME_VALID 0 for the two DECODEs. -/
theorem validateRejectsAnUnknownType : Obligations.ValidateRejectsAnUnknownType := by
  intro s hlen hstart hend (hsize : s.capture.len.toNat = frameLength (capByte s 3)) hstatus hbasic hcells
  refine ⟨_, congrArg Host.Outcome.next ?_, rfl, exec_decode_of_not_valid rfl rfl⟩
  rw [validate_eq, if_neg (by omega), if_neg (not_not.2 hstart), if_neg (not_not.2 hend), if_neg (not_not.2 hsize),
    if_neg (not_not.2 hstatus), if_pos (classify_unknown hbasic hcells)]
  rfl

/-- The two types of R110 are classified, and by their type byte. -/
theorem classify_known {b : Byte} (h : b = 0x03 ∨ b = 0x04) :
    classify b = (if b = 0x03 then .basic else .cells) ∧ classify b ≠ .unknown := by
  obtain rfl | rfl := h <;> decide

theorem transmittedChecksum_eq (s : State) : transmittedChecksum s =
    capByte s (4 + (capByte s 3).toNat) ++ capByte s (5 + (capByte s 3).toNat) := by
  rw [transmittedChecksum, be16_eq, show 4 + (capByte s 3).toNat + 1 = 5 + (capByte s 3).toNat by omega]

/-- VALIDATE of a capture that passes steps 1 to 7 is the comparison of step 8 (R168, R169). -/
theorem validate_eq_compare {s : State} (hlen : 7 ≤ s.capture.len.toNat) (hstart : capByte s 0 = 0xDD)
    (hend : s.capture.last = 0x77) (hsize : s.capture.len.toNat = frameLength (capByte s 3)) (hstatus : capByte s 2 = 0x00)
    (htype : classify (capByte s 1) ≠ .unknown) : validate s =
    if transmittedChecksum s = computedChecksum s then
      { s with frame := latchedFrame s, record := .cleared, result := ⟨.ok, .validate, 0, 0⟩ }
    else
      { s with frame := { latchedFrame s with valid := false }, record := .cleared,
               result := ⟨.checksumMismatch, .validate, transmittedChecksum s, computedChecksum s⟩ } := by
  rw [validate_eq, if_neg (by omega), if_neg (not_not.2 hstart), if_neg (not_not.2 hend), if_neg (not_not.2 hsize),
    if_neg (not_not.2 hstatus), if_neg htype, ite_not]

/-- Settles O36: step 8, with the latched frame group written out. -/
theorem validateComparesTheChecksums : Obligations.ValidateComparesTheChecksums := by
  intro s hlen hstart hend hsize hstatus hknown n computed rx ty
  obtain ⟨hty, htype⟩ := classify_known hknown
  have hframe : latchedFrame s = ⟨true, ty, capByte s 1, capByte s 2, capByte s 3, rx, computed⟩ := by
    rw [latchedFrame, hty, transmittedChecksum_eq]
    rfl
  refine congrArg Host.Outcome.next ?_
  rw [validate_eq_compare hlen hstart hend hsize hstatus htype, hframe, transmittedChecksum_eq]
  rfl

/-! ### The first failing step (R170, R171) -/

theorem validate_kind (s : State) : (validate s).result.kind = firstFailure validationSteps s := by
  rw [validate_eq, firstFailure_eq]
  split_ifs <;> rfl

theorem validate_stage (s : State) : (validate s).result.stage = .validate := by
  rw [validate_eq]
  split_ifs <;> rfl

/-- VALIDATE leaves the frame group of its outcome's row of R171. -/
theorem validate_frame (s : State) : (validate s).frame = frameAfter s (firstFailure validationSteps s) := by
  rw [validate_eq, firstFailure_eq]
  split_ifs <;> rfl

/-- Settles O37: the eight steps of the model and the list of R170 make the same case distinction. -/
theorem validateReportsTheFirstFailingStep : Obligations.ValidateReportsTheFirstFailingStep :=
  fun s => ⟨validate s, rfl, validate_kind s, validate_stage s, validate_frame s, validate_capture s, validate_record s,
    validate_host s⟩

/-! ### Repeated commands (R173) -/

/-- VALIDATE reads the capture alone, and no register that it writes. -/
theorem validate_congr {s t : State} (hc : t.capture = s.capture) (hh : t.host = s.host) : validate t = validate s := by
  have hr : t.host.resets = s.host.resets := by rw [hh]
  simp only [validate_eq, hc, hh, capByte_of_capture_eq hc hr, transmittedChecksum_congr hc hr,
    computedChecksum_congr hc hr, latchedFrame_congr hc hr]

/-- DECODE reads no record and no result register. -/
theorem decodeRecord_with_record_result (ty : ResponseType) (s : State) (q : RecordRegs) (r : ResultRegs) :
    decodeRecord ty { s with record := q, result := r } = decodeRecord ty s := by
  cases ty with
  | basic => rw [decodeRecord_basic_eq, decodeRecord_basic_eq]; rfl
  | cells => rw [decodeRecord_cells_eq, decodeRecord_cells_eq]; rfl
  | unknown => rfl

theorem decodeRecord_idem (ty : ResponseType) (s : State) : decodeRecord ty (decodeRecord ty s) = decodeRecord ty s := by
  obtain ⟨q, r, h⟩ := exists_decodeRecord_eq ty s
  calc decodeRecord ty (decodeRecord ty s) = decodeRecord ty { s with record := q, result := r } := by rw [h]
    _ = decodeRecord ty s := decodeRecord_with_record_result ty s q r

/-- Settles O38: the first run leaves what the command reads. -/
theorem repeatedCommandsGiveTheSameState : Obligations.RepeatedCommandsGiveTheSameState := by
  intro s t i hi h
  simp only [List.mem_cons, List.not_mem_nil, or_false] at hi
  obtain rfl | rfl | rfl | rfl := hi <;> cases h
  · exact ⟨validate_capture s, congrArg Host.Outcome.next (validate_congr (validate_capture s) (validate_host s))⟩
  · exact ⟨decodeRecord_capture _ s, congrArg Host.Outcome.next (decodeRecord_idem _ s)⟩
  · exact ⟨decodeRecord_capture _ s, congrArg Host.Outcome.next (decodeRecord_idem _ s)⟩
  · exact ⟨decodeRecord_capture _ s, congrArg Host.Outcome.next (decodeRecord_idem _ s)⟩

/-! ### A flipped payload bit (R176, R234) -/

theorem zext16_injective {b c : Byte} (h : zext16 b = zext16 c) : b = c := by
  have hnat := congrArg BitVec.toNat h
  simp only [zext16, BitVec.toNat_setWidth] at hnat
  exact BitVec.eq_of_toNat_eq (by omega)

/-- Bytes added to two different sums leave them different. -/
theorem foldl_add_injective (p : List Byte) {x y : Half}
    (h : p.foldl (fun acc b => acc + zext16 b) x = p.foldl (fun acc b => acc + zext16 b) y) : x = y := by
  induction p generalizing x y with
  | nil => exact h
  | cons b p ih => exact add_right_cancel (ih h)

/-- The checksum is the negation of the sum (R230). -/
theorem checksum_eq_neg (st n : Byte) (p : List Byte) : checksum st n p = -checksumSum st n p :=
  (BitVec.neg_eq_not_add _).symm

/-- Each payload byte decides the checksum: with the others fixed, equal checksums mean an equal byte. -/
theorem payload_byte_eq_of_checksum_eq {st n b c : Byte} {p q : List Byte}
    (h : checksum st n (p ++ b :: q) = checksum st n (p ++ c :: q)) : b = c := by
  simp only [checksum_eq_neg, neg_inj, checksumSum, List.foldl_append, List.foldl_cons] at h
  exact zext16_injective (add_left_cancel (foldl_add_injective q h))

theorem flip_bit_ne (b : Byte) {k : Nat} (hk : k < 8) : b ^^^ (1 <<< k) ≠ b := by
  have hbit : (1 <<< k : Byte) ≠ 0 := by interval_cases k <;> decide
  intro h
  exact hbit ((BitVec.xor_right_inj b).1 (h.trans BitVec.xor_zero.symm))

theorem memRead_add (s : State) (i m n : Nat) : memRead s i (m + n) = memRead s i m ++ memRead s (i + m) n := by
  induction m generalizing i with
  | zero => simp [memRead]
  | succ m ih => simp [memRead, Nat.succ_add, ih, Nat.add_assoc]

/-- A list of capture bytes cut at one of its indices. -/
theorem memRead_eq_append_cons (s : State) {i j n : Nat} (hij : i ≤ j) (hjn : j < i + n) :
    memRead s i n = memRead s i (j - i) ++ capByte s j :: memRead s (j + 1) (i + n - (j + 1)) := by
  obtain ⟨m, rfl⟩ := Nat.exists_eq_add_of_le hij
  obtain ⟨l, rfl⟩ : ∃ l, n = m + (l + 1) := ⟨n - m - 1, by omega⟩
  rw [memRead_add, memRead, show i + m - i = m by omega, show i + (m + (l + 1)) - (i + m + 1) = l by omega]

/-- A change of one payload byte changes the computed checksum (R168, R234). -/
theorem computedChecksum_ne {s t : State} {i : Nat} (hlo : 4 ≤ i) (hhi : i < 4 + (capByte s 3).toNat)
    (hi : capByte t i ≠ capByte s i) (hother : ∀ j, j ≠ i → capByte t j = capByte s j) :
    computedChecksum t ≠ computedChecksum s := by
  intro h
  simp only [computedChecksum, hother 2 (by omega), hother 3 (by omega)] at h
  rw [memRead_eq_append_cons s hlo hhi, memRead_eq_append_cons t hlo hhi,
    memRead_congr fun j _ _ => hother j (by omega),
    memRead_congr (i := i + 1) fun j _ _ => hother j (by omega)] at h
  exact hi (payload_byte_eq_of_checksum_eq h)

/-- A valid capture passes every step. -/
theorem ValidCapture.passes {s : State} (h : ValidCapture s) :
    7 ≤ s.capture.len.toNat ∧ capByte s 0 = 0xDD ∧ s.capture.last = 0x77 ∧
    s.capture.len.toNat = frameLength (capByte s 3) ∧ capByte s 2 = 0x00 ∧ classify (capByte s 1) ≠ .unknown ∧
    transmittedChecksum s = computedChecksum s := by
  have hsum := h.checksums_agree
  simp only [ValidCapture, firstFailure_eq] at h
  split_ifs at h with hlen hstart hend hsize hstatus htype
  exact ⟨by omega, not_not.1 hstart, not_not.1 hend, not_not.1 hsize, not_not.1 hstatus, htype, hsum⟩

/-- Settles O40: the flip leaves steps 1 to 7 and the transmitted checksum, and changes the computed one. -/
theorem validateDetectsEveryPayloadBitFlip : Obligations.ValidateDetectsEveryPayloadBitFlip := by
  intro s t i k hvalid hlo hhi hk hlen hlast hflip hother
  obtain ⟨hlong, hstart, hend, hsize, hstatus, htype, hsum⟩ := hvalid.passes
  have hchanged : computedChecksum t ≠ computedChecksum s :=
    computedChecksum_ne hlo hhi (by rw [hflip]; exact flip_bit_ne _ hk) hother
  have hsame : transmittedChecksum t = transmittedChecksum s := by
    rw [transmittedChecksum, hother 3 (by omega)]
    exact be16_congr (hother _ (by omega)) (hother _ (by omega))
  have hmismatch : transmittedChecksum t ≠ computedChecksum t := by
    rw [hsame, hsum]
    exact hchanged.symm
  refine ⟨validate t, rfl, ?_⟩
  rw [← hlen] at hlong hsize
  rw [← hlast] at hend
  rw [← hother 0 (by omega)] at hstart
  rw [← hother 1 (by omega)] at htype
  rw [← hother 2 (by omega)] at hstatus
  rw [← hother 3 (by omega)] at hsize
  rw [validate_eq_compare hlong hstart hend hsize hstatus htype, if_neg hmismatch]
  exact ⟨rfl, rfl, rfl⟩

/-! ### Request frames (R177) -/

/-- Settles O41: a request has the markers and the length of a frame without payload, and its type stands where a response
has its status. -/
theorem requestFrameIsNoResponse : Obligations.RequestFrameIsNoResponse := by
  intro s ty hty hframe
  obtain ⟨hlen, hbytes, hlast⟩ := hframe
  have hlen7 : s.capture.len.toNat = 7 := hlen
  have h1 : capByte s 1 = 0xA5 := hbytes 1 _ rfl
  have h2 : capByte s 2 = ty := hbytes 2 _ rfl
  have h3 : capByte s 3 = 0x00 := hbytes 3 _ rfl
  have hsize : s.capture.len.toNat = 4 + (capByte s 3).toNat + 2 + 1 := by rw [hlen7, h3]; rfl
  have hfault := (validateReportsADeviceFault s (by omega) (hbytes 0 _ rfl) hlast (by rwa [h2])).1 hsize
  rwa [h1, h2, h3] at hfault

end Sys2Proof.Machine
end

section
/-! PROOFS. R172, R292: no action of the host but a window read of a stale byte tells apart two captures that differ in
stale bytes alone. -/

namespace Sys2Proof.Machine

/-! ### The window of R53 is the one way to a single capture byte -/

/-- A register stands at its own address and at no other (R51). -/
theorem atAddress_eq_some_iff {a : Nat} {r : Reg} : Reg.atAddress a = some r ↔ r.address = a := by
  refine ⟨fun h => ?_, fun h => h ▸ atAddress_address r⟩
  by_cases hlow : a < 0x038
  · have hregs : ∀ a < 0x038, ∀ r ∈ Reg.atAddress a, r.address = a := by decide
    exact hregs a hlow r h
  · rw [atAddress_of_ge (by omega)] at h
    split_ifs at h with hgap hwindow
    cases h
    exact Nat.add_sub_cancel' (not_lt.1 hgap)

/-- The address is the window's address of a stale byte (R53, U2). -/
def IsStaleAddress (s : State) (a : BitVec 12) : Prop :=
  0x100 + min s.capture.len.toNat 262 ≤ a.toNat ∧ a.toNat < 0x100 + 262

theorem readsStale_iff {s : State} {a : BitVec 12} {rest : List HostAction} (hp : s.host.pending = .read a :: rest) :
    readsStale s = true ↔ IsStaleAddress s a := by
  simp [readsStale, hp, IsStaleAddress]

namespace SameButStale

variable {s t : State} (h : SameButStale s t)

include h

/-! ### What two such states agree on -/

/-- They agree on the bytes of the frame that the capture is long enough for. -/
theorem capByte_of_frame {i : Nat} (hsize : s.capture.len.toNat = frameLength (capByte s 3))
    (hi : i < frameLength (capByte s 3)) : capByte t i = capByte s i := by
  have hmax := frameLength_le (capByte s 3)
  exact (h.bytes i (by omega)).symm

theorem be16_of_frame {i : Nat} (hsize : s.capture.len.toNat = frameLength (capByte s 3))
    (hi : i + 1 < frameLength (capByte s 3)) : be16 t i = be16 s i :=
  be16_congr (h.capByte_of_frame hsize (by omega)) (h.capByte_of_frame hsize hi)

/-- Step 8 covers bytes of the frame alone (R168). -/
theorem checksums_of_frame (hsize : s.capture.len.toNat = frameLength (capByte s 3)) :
    transmittedChecksum t = transmittedChecksum s ∧ computedChecksum t = computedChecksum s := by
  have hlen := frameLength_eq (capByte s 3)
  have hbyte {j : Nat} (hj : j < 4 + (capByte s 3).toNat) : capByte t j = capByte s j :=
    h.capByte_of_frame hsize (by omega)
  constructor
  · rw [transmittedChecksum, hbyte (by omega)]
    exact h.be16_of_frame hsize (by omega)
  · rw [computedChecksum, hbyte (by omega), hbyte (by omega), memRead_congr fun j _ hj => hbyte hj]
    rfl

/-- They stay so when both get the same result, frame and record groups. -/
theorem with_groups (r : ResultRegs) (f : FrameRegs) (q : RecordRegs) :
    SameButStale { s with result := r, frame := f, record := q } { t with result := r, frame := f, record := q } :=
  ⟨h.len, h.last, h.bytes, rfl, rfl, rfl, h.pending, h.readData⟩

/-! ### The commands -/

/-- VALIDATE looks at bytes 0 to 3 of a capture of at least 7 bytes, and at the others only once step 5 passed. -/
theorem after_validate : SameButStale (validate s) (validate t) := by
  rw [validate_eq s, validate_eq t, ← h.len, ← h.last]
  by_cases hshort : s.capture.len.toNat < 7
  · rw [if_pos hshort, if_pos hshort]
    exact h.with_groups _ _ _
  have hbyte {i : Nat} (hi : i < 7) : capByte t i = capByte s i := (h.bytes i (by omega)).symm
  rw [if_neg hshort, if_neg hshort, hbyte (by omega : 0 < 7), hbyte (by omega : 1 < 7), hbyte (by omega : 2 < 7),
    hbyte (by omega : 3 < 7)]
  by_cases hsize : s.capture.len.toNat = frameLength (capByte s 3)
  · obtain ⟨hrx, hcalc⟩ := h.checksums_of_frame hsize
    have hframe : latchedFrame t = latchedFrame s := by
      simp only [latchedFrame, hrx, hcalc, hbyte (by omega : 1 < 7), hbyte (by omega : 2 < 7), hbyte (by omega : 3 < 7)]
    rw [hrx, hcalc, hframe]
    split_ifs <;> exact h.with_groups _ _ _
  · rw [if_pos hsize, if_pos hsize]
    split_ifs <;> exact h.with_groups _ _ _

/-- They agree on the payload and the checksum field of a validated frame, which the capture is long enough for (R39). -/
theorem payload_of_valid (hs : FrameInv s) (hv : s.frame.valid ≠ false) :
    ∀ j, 4 ≤ j → j < 4 + s.frame.payLen.toNat + 2 → capByte t j = capByte s j := by
  obtain ⟨hvalid, hframe⟩ := hs.describes (Bool.eq_true_of_not_eq_false hv)
  obtain ⟨-, -, -, hsize, -⟩ := hvalid.passes
  have hpay : s.frame.payLen = capByte s 3 := by rw [hframe]; rfl
  intro j _ hj
  rw [hpay] at hj
  exact h.capByte_of_frame hsize (Nat.lt_succ_of_lt hj)

theorem after_decodeBasic (hs : FrameInv s) : SameButStale (decodeRecord .basic s) (decodeRecord .basic t) := by
  rw [decodeRecord_basic_eq s, decodeRecord_basic_eq t, ← h.frame]
  by_cases hv : s.frame.valid = false
  · rw [if_pos hv, if_pos hv]
    exact h.with_groups _ _ _
  rw [if_neg hv, if_neg hv]
  by_cases hsize : s.frame.payLen.toNat = 38
  · have hbyte := h.payload_of_valid hs hv
    rw [basicRecord_congr (by omega) hbyte, be16_congr (hbyte _ (by omega) (by omega)) (hbyte _ (by omega) (by omega))]
    split_ifs <;> exact h.with_groups _ _ _
  · rw [if_pos hsize, if_pos hsize]
    exact h.with_groups _ _ _

theorem after_decodeCells (hs : FrameInv s) : SameButStale (decodeRecord .cells s) (decodeRecord .cells t) := by
  rw [decodeRecord_cells_eq s, decodeRecord_cells_eq t, ← h.frame]
  by_cases hv : s.frame.valid = false
  · rw [if_pos hv, if_pos hv]
    exact h.with_groups _ _ _
  rw [if_neg hv, if_neg hv, cellRecord_congr (h.payload_of_valid hs hv)]
  split_ifs <;> exact h.with_groups _ _ _

/-- DECODE loads bytes of a validated frame alone (R192). -/
theorem after_decodeRecord (hs : FrameInv s) (ty : ResponseType) :
    SameButStale (decodeRecord ty s) (decodeRecord ty t) := by
  cases ty with
  | basic => exact h.after_decodeBasic hs
  | cells => exact h.after_decodeCells hs
  | unknown =>
    rw [decodeRecord_unknown_eq s, decodeRecord_unknown_eq t, ← h.frame]
    exact h.with_groups _ _ _

/-- PARSE takes the same branch after the same validation (R245). -/
theorem after_parse : SameButStale (parse s) (parse t) := by
  have hvalidate := h.after_validate
  obtain ⟨hs, -⟩ := validate_frameInv_resultInv s
  simp only [parse, decodeAsClassified, ← hvalidate.result, ← hvalidate.frame]
  split
  · split
    · exact hvalidate.after_decodeRecord hs _
    · exact hvalidate
  · exact hvalidate

/-- PUSH overwrites the first stale byte with the pushed one, or stores none when CAP_BUF is full (R142). -/
theorem after_push (b : Byte) : SameButStale (clearRecord (setFrameValid (captureByte b s) false))
    (clearRecord (setFrameValid (captureByte b t) false)) where
  len := by simp [captureByte_capture, h.len]
  last := by simp [captureByte_capture]
  bytes i hi := by
    simp only [clearRecord_capture, setFrameValid_capture, captureByte_capture, nextLen_toNat] at hi
    simp only [capByte_clearRecord, capByte_setFrameValid, capByte_captureByte, ← h.len]
    split_ifs with hnew
    · rfl
    · exact h.bytes i (by omega)
  result := by simp [h.result]
  frame := by simp [h.frame]
  record := rfl
  pending := by simp [h.pending]
  readData := by simp [h.readData]

/-- An empty capture has no byte that is not stale (R141). -/
theorem after_clear {s' : State} (hs : execClear s = .next s') : ∃ t', execClear t = .next t' ∧ SameButStale s' t' := by
  cases hs
  exact ⟨_, rfl, rfl, rfl, nofun, rfl, rfl, rfl, h.pending, h.readData⟩

/-- Every command. -/
theorem after_exec (hs : FrameInv s) {i : Instr} {s' : State} (he : exec i s = .next s') :
    ∃ t', exec i t = .next t' ∧ SameButStale s' t' := by
  cases i with
  | nop => cases he; exact ⟨_, rfl, h⟩
  | clear => exact h.after_clear he
  | push b => cases he; exact ⟨_, rfl, h.after_push b⟩
  | validate => cases he; exact ⟨_, rfl, h.after_validate⟩
  | decodeBasic => cases he; exact ⟨_, rfl, h.after_decodeRecord hs .basic⟩
  | decodeCells => cases he; exact ⟨_, rfl, h.after_decodeRecord hs .cells⟩
  | decodeUnknown => cases he; exact ⟨_, rfl, h.after_decodeRecord hs .unknown⟩
  | parse => cases he; exact ⟨_, rfl, h.after_parse⟩

/-! ### The other actions of the host -/

/-- Every register but a stale byte of the window reads the same (R51, R53). -/
theorem readPort_eq {a : BitVec 12} (hfresh : ¬IsStaleAddress s a) : readPort s a = readPort t a := by
  unfold readPort
  cases hreg : Reg.atAddress a.toNat with
  | none => rfl
  | some r =>
    have haddr := atAddress_eq_some_iff.1 hreg
    cases r with
    | capBuf i =>
      have hi : 0x100 + i.val = a.toNat := haddr
      rw [IsStaleAddress] at hfresh
      simp only [Reg.value, h.bytes i.val (by omega)]
    | _ => simp only [Reg.value, h.len, h.last, h.result, h.frame, h.record]

/-- Every action but a window read of a stale byte. -/
theorem after_action (hs : FrameInv s) {a : HostAction} {s' : State}
    (hfresh : ∀ addr, a = .read addr → ¬IsStaleAddress s addr)
    (ha : runAction a s = .next s') : ∃ t', runAction a t = .next t' ∧ SameButStale s' t' := by
  cases a with
  | write w =>
    cases hd : decode w with
    | ok i =>
      rw [runAction, runWord_of_decode hd] at ha ⊢
      exact h.after_exec hs ha
    | error e =>
      simp only [runAction, runWord, hd] at ha ⊢
      cases ha
      exact ⟨_, rfl, h.len, h.last, h.bytes, rfl, h.frame, h.record, h.pending, h.readData⟩
  | read addr =>
    cases ha
    exact ⟨_, rfl, h.len, h.last, h.bytes, h.result, h.frame, h.record, h.pending, h.readPort_eq (hfresh addr rfl)⟩
  | reset =>
    cases ha
    exact ⟨_, rfl, rfl, rfl, nofun, rfl, rfl, rfl, h.pending, h.readData⟩

theorem after_setPending (p : List HostAction) : SameButStale (setPending s p) (setPending t p) :=
  ⟨h.len, h.last, h.bytes, h.result, h.frame, h.record, rfl, h.readData⟩

end SameButStale

/-- Settles O58: both states take the host's same action, and each action keeps them the same but for stale bytes. -/
theorem staleCaptureBytesAreNeverUsed : Obligations.StaleCaptureBytesAreNeverUsed := by
  intro s t s' hs _ h hfresh hstep
  cases hp : s.host.pending with
  | nil =>
    cases (step_of_pending_nil hp).symm.trans hstep
    exact ⟨t, step_of_pending_nil (h.pending ▸ hp), h⟩
  | cons a rest =>
    rw [step_of_pending_cons hp] at hstep
    rw [step_of_pending_cons (h.pending ▸ hp)]
    refine (h.after_setPending rest).after_action (inv_setPending hs rest).frame (fun addr haddr => ?_) hstep
    subst haddr
    intro hstale
    rw [(readsStale_iff hp).2 hstale] at hfresh
    cases hfresh

end Sys2Proof.Machine
end

section
/-! PROOFS. DECODE (R190 to R213, R219): the checks in their order, what each record register is loaded with, and that a
command that decodes leaves a whole record or none. -/

namespace Sys2Proof.Machine

/-! ### The fields that a record is loaded with (R195 to R211) -/

theorem be16_eq_of_succ (s : State) {i j : Nat} (h : i + 1 = j) : be16 s i = capByte s i ++ capByte s j := by
  rw [be16_eq, h]

/-- Two bits hold `min(ntc_count, 3)` (R200). -/
theorem tempCountOf_toNat (n : Byte) : (tempCountOf n).toNat = min n.toNat 3 := by
  rw [tempCountOf, BitVec.toNat_ofNat, Config.ntcMax]
  omega

theorem tempSlot_eq (s : State) (i : Nat) : tempSlot s i =
    if i < min (capByte s 26).toNat 3 then capByte s (27 + 2 * i) ++ capByte s (28 + 2 * i)
    else native16 s (27 + 2 * i) := by
  rw [tempSlot, tempCountOf_toNat, be16_eq_of_succ s (by omega : 27 + 2 * i + 1 = 28 + 2 * i)]

theorem cellSlot_eq (s : State) (n i : Nat) : cellSlot s n i =
    if i < n / 2 then capByte s (4 + 2 * i) ++ capByte s (5 + 2 * i) else 0x0000 := by
  rw [cellSlot, be16_eq_of_succ s (by omega : 4 + 2 * i + 1 = 5 + 2 * i)]

theorem basicRecord_temp (s : State) (n : Nat) : (i : Fin 3) → (basicRecord s n).temp[i] = tempSlot s i
  | 0 | 1 | 2 => rfl

theorem basicRecord_trailer (s : State) (n : Nat) :
    (j : Fin 9) → (basicRecord s n).trailer[j] = capByte s (33 + j)
  | 0 | 1 | 2 | 3 | 4 | 5 | 6 | 7 | 8 => rfl

theorem cellRecord_cell (s : State) (n : Nat) : (i : Fin 6) → (cellRecord s n).cell[i] = cellSlot s n i
  | 0 | 1 | 2 | 3 | 4 | 5 => rfl

/-- Three bits hold the count of at most 6 cells (R210). -/
theorem cellRecord_count_toNat (s : State) {n : Nat} (h : n ≤ 12) : (cellRecord s n).count.toNat = n / 2 := by
  rw [cellRecord, BitVec.toNat_ofNat]
  omega

theorem cellRecord_csum (s : State) (n : Nat) : (cellRecord s n).csum = capByte s (4 + n) ++ capByte s (5 + n) :=
  be16_eq_of_succ s (by omega)

/-- Rounding down to an even number clears bit 0. -/
theorem ofNat_even_part {w : Nat} (n : Nat) : BitVec.ofNat w (n / 2 * 2) = BitVec.ofNat w n &&& ~~~1 := by
  have heven : n / 2 * 2 = n >>> 1 <<< 1 := by simp [Nat.shiftLeft_eq, Nat.shiftRight_eq_div_pow]
  refine BitVec.eq_of_getLsbD_eq fun i hi => ?_
  rw [BitVec.getLsbD_and, BitVec.getLsbD_ofNat, BitVec.getLsbD_ofNat, heven]
  cases i with
  | zero => simp [hi]
  | succ i => simp [hi, Nat.add_comm 1 i]

/-- The length that DECODE CELLS would have accepted is `min(N, 12)` with bit 0 cleared (R194). -/
theorem cellLenExpected_eq (n : Byte) : cellLenExpected n = BitVec.ofNat 16 (min n.toNat 12) &&& ~~~1 :=
  ofNat_even_part _

/-! ### The refusals (R191 to R194, R208) -/

/-- Settles O42: UNKNOWN is looked at before FRAME_VALID. -/
theorem decodeUnknownIsUnsupported : Obligations.DecodeUnknownIsUnsupported :=
  fun s => congrArg Host.Outcome.next (decodeRecord_unknown_eq s)

/-- Settles O43: the first check of both DECODEs. -/
theorem decodeNeedsAValidatedFrame : Obligations.DecodeNeedsAValidatedFrame := by
  intro s hv
  constructor
  · refine congrArg Host.Outcome.next ?_
    rw [decodeRecord_basic_eq, if_pos hv]
  · refine congrArg Host.Outcome.next ?_
    rw [decodeRecord_cells_eq, if_pos hv]

/-- Settles O44: the size check fails. -/
theorem decodeBasicRejectsAWrongSize : Obligations.DecodeBasicRejectsAWrongSize := by
  intro s hv hsize
  refine congrArg Host.Outcome.next ?_
  rw [decodeRecord_basic_eq, if_neg (by simp [hv]), if_pos hsize]
  rfl

/-- Settles O47: the size check passes and the second gate fails. -/
theorem secondGateRejectsADifferentChecksum : Obligations.SecondGateRejectsADifferentChecksum := by
  intro s hv hsize hgate
  refine congrArg Host.Outcome.next ?_
  rw [decodeRecord_basic_eq, if_neg (by simp [hv]), if_neg (not_not.2 hsize), hsize]
  exact if_pos hgate

/-! ### The loads (R195 to R213) -/

/-- Settles O46: every check passes, and the record is `basicRecord` of 38 payload bytes. -/
theorem decodeBasicLoadsEveryField : Obligations.DecodeBasicLoadsEveryField := by
  intro s hv hsize hgate
  have hdecode : decodeRecord .basic s =
      { s with record := ⟨.basic, basicRecord s 38, .zero⟩, result := ⟨.ok, .decode, 0, 0⟩ } := by
    rw [decodeRecord_basic_eq, if_neg (by simp [hv]), if_neg (not_not.2 hsize), hsize]
    exact if_neg (not_not.2 hgate)
  refine ⟨_, congrArg Host.Outcome.next hdecode, rfl, rfl, rfl, rfl, rfl, rfl, rfl, rfl, rfl, rfl, rfl, rfl, rfl, rfl,
    rfl, rfl, rfl, rfl, rfl, tempCountOf_toNat _, fun i => ?_, fun j => ?_, rfl⟩
  · exact (basicRecord_temp s 38 i).trans (tempSlot_eq s i)
  · exact basicRecord_trailer s 38 j

/-- Settles O49: both checks pass, and the record is `cellRecord` of PAY_LEN payload bytes. -/
theorem decodeCellsLoadsEveryCell : Obligations.DecodeCellsLoadsEveryCell := by
  intro s hv heven hmax
  have hdecode : decodeRecord .cells s =
      { s with record := ⟨.cells, .zero, cellRecord s s.frame.payLen.toNat⟩, result := ⟨.ok, .decode, 0, 0⟩ } := by
    rw [decodeRecord_cells_eq, if_neg (by simp [hv]), if_neg (by omega)]
  refine ⟨_, congrArg Host.Outcome.next hdecode, rfl, rfl, rfl, rfl, rfl, rfl, cellRecord_count_toNat s hmax,
    fun i => ?_, cellRecord_csum s _⟩
  exact (cellRecord_cell s _ i).trans (cellSlot_eq s _ i)

/-- Settles O45: the size check fails, and a payload of 0 bytes is the case of O49 with no cell. -/
theorem decodeCellsRejectsAWrongSize : Obligations.DecodeCellsRejectsAWrongSize := by
  intro s hv
  refine ⟨fun hsize => congrArg Host.Outcome.next ?_, fun hzero => ?_⟩
  · rw [decodeRecord_cells_eq, if_neg (by simp [hv]), if_pos hsize, cellLenExpected_eq]
    rfl
  · obtain ⟨t, ht, hresult, -, -, -, hkind, -, hcount, -⟩ :=
      decodeCellsLoadsEveryCell s hv (by omega) (by omega)
    refine ⟨t, ht, by rw [hresult], hkind, BitVec.eq_of_toNat_eq ?_⟩
    rw [hcount, hzero]
    rfl

/-! ### From a sound state (R209, R212) -/

/-- DECODE CELLS loads the checksum that VALIDATE computed, although it does not compare them (R212). -/
theorem decodeRecord_cells_csum {s : State} (h : FrameInv s) (hok : (decodeRecord .cells s).result.kind = .ok) :
    (decodeRecord .cells s).record.cv.csum = (decodeRecord .cells s).frame.csumCalc := by
  rw [decodeRecord_cells_eq] at hok ⊢
  split_ifs at hok ⊢ with hvalid hsize
  exact h.checksum_field (Bool.eq_true_of_not_eq_false hvalid)

/-- Settles O48: a sound result group holds no ChecksumMismatch of stage DECODE, and every command keeps it sound. -/
theorem recordChecksumsAgreeWithTheValidator : Obligations.RecordChecksumsAgreeWithTheValidator := by
  intro s t h
  refine ⟨fun i hi ⟨hkind, hstage⟩ => ?_, fun ht hok => ?_⟩
  · have hfits := (exec_keeps_inv h hi).result.stage
    rw [hkind, hstage] at hfits
    cases hfits
  · cases ht
    exact decodeRecord_cells_csum h.frame hok

/-! ### A whole record or none (R213) -/

/-- What DECODE and PARSE leave: OK and a record, or a failure and none. -/
def WholeRecordOrNone (t : State) : Prop :=
  (t.result.kind = .ok ∧ t.result.stage = .decode ∧ (t.record.kind = .basic ∨ t.record.kind = .cells)) ∨
  (t.result.kind ≠ .ok ∧ t.record = .cleared)

theorem wholeRecordOrNone_decodeRecord (ty : ResponseType) (s : State) : WholeRecordOrNone (decodeRecord ty s) := by
  cases ty with
  | basic =>
    rw [decodeRecord_basic_eq]
    split_ifs
    · exact .inr ⟨nofun, rfl⟩
    · exact .inr ⟨nofun, rfl⟩
    · exact .inr ⟨nofun, rfl⟩
    · exact .inl ⟨rfl, rfl, .inl rfl⟩
  | cells =>
    rw [decodeRecord_cells_eq]
    split_ifs
    · exact .inr ⟨nofun, rfl⟩
    · exact .inr ⟨nofun, rfl⟩
    · exact .inl ⟨rfl, rfl, .inr rfl⟩
  | unknown => exact .inr ⟨nofun, rfl⟩

/-- Every classification is an operand of DECODE (R112). -/
theorem RType.exists_operand {r : RType} (h : r ≠ .none) : ∃ ty, r.operand = some ty := by
  cases r with
  | none => exact absurd rfl h
  | basic => exact ⟨.basic, rfl⟩
  | cells => exact ⟨.cells, rfl⟩
  | unknown => exact ⟨.unknown, rfl⟩

/-- VALIDATE classifies every frame that it accepts (R169). -/
theorem validate_rtype_of_ok {s : State} (h : (validate s).result.kind = .ok) :
    (validate s).frame.rtype = classify (capByte s 1) := by
  rw [validate_frame, ← validate_kind, h]
  rfl

/-- PARSE of a frame that VALIDATE refuses is VALIDATE (R245). -/
theorem parse_of_validate_ne_ok {s : State} (h : (validate s).result.kind ≠ .ok) : parse s = validate s :=
  if_neg h

/-- PARSE of a frame that VALIDATE accepts ends with a DECODE (R245). -/
theorem parse_of_validate_ok {s : State} (h : (validate s).result.kind = .ok) :
    ∃ ty, parse s = decodeRecord ty (validate s) := by
  have hclassified : (validate s).frame.rtype ≠ .none := validate_rtype_of_ok h ▸ classify_ne_none _
  obtain ⟨ty, hty⟩ := RType.exists_operand hclassified
  refine ⟨ty, ?_⟩
  simp only [parse, if_pos h, decodeAsClassified, hty]

theorem wholeRecordOrNone_parse (s : State) : WholeRecordOrNone (parse s) := by
  by_cases h : (validate s).result.kind = .ok
  · obtain ⟨ty, hparse⟩ := parse_of_validate_ok h
    exact hparse ▸ wholeRecordOrNone_decodeRecord ty _
  · rw [parse_of_validate_ne_ok h]
    exact .inr ⟨h, validate_record s⟩

/-- Settles O50, by the command. -/
theorem decodingIsAllOrNothing : Obligations.DecodingIsAllOrNothing := by
  intro s t i hi h
  simp only [List.mem_cons, List.not_mem_nil, or_false] at hi
  obtain rfl | rfl | rfl | rfl := hi <;> cases h
  · exact wholeRecordOrNone_decodeRecord .basic s
  · exact wholeRecordOrNone_decodeRecord .cells s
  · exact wholeRecordOrNone_decodeRecord .unknown s
  · exact wholeRecordOrNone_parse s

/-! ### The operand alone chooses the record (R219) -/

/-- RTYPE replaced. -/
def setRType (s : State) (r : RType) : State := { s with frame := { s.frame with rtype := r } }

/-- DECODE neither reads nor writes RTYPE. -/
theorem decodeRecord_setRType (ty : ResponseType) (s : State) (r : RType) :
    decodeRecord ty (setRType s r) = setRType (decodeRecord ty s) r := by
  cases ty with
  | basic =>
    rw [decodeRecord_basic_eq, decodeRecord_basic_eq, apply_ite (setRType · r), apply_ite (setRType · r),
      apply_ite (setRType · r)]
    rfl
  | cells =>
    rw [decodeRecord_cells_eq, decodeRecord_cells_eq, apply_ite (setRType · r), apply_ite (setRType · r)]
    rfl
  | unknown => rfl

/-- Settles O51: all three DECODEs are `decodeRecord` of their operand. -/
theorem decodeIgnoresTheClassification : Obligations.DecodeIgnoresTheClassification := by
  intro s t r i hi h
  simp only [List.mem_cons, List.not_mem_nil, or_false] at hi
  obtain rfl | rfl | rfl := hi <;> cases h
  · exact congrArg Host.Outcome.next (decodeRecord_setRType .basic s r)
  · exact congrArg Host.Outcome.next (decodeRecord_setRType .cells s r)
  · exact congrArg Host.Outcome.next (decodeRecord_setRType .unknown s r)

/-! ### The packed date (R214) -/

/-- A bit field is the source's shift and mask. -/
theorem extractLsb'_toNat_eq_shift_mask (raw : Half) (k : Nat) {n : Nat} {mask : Half} (h : mask.toNat = 2 ^ n - 1) :
    (raw.extractLsb' k n).toNat = ((raw >>> k) &&& mask).toNat := by
  rw [BitVec.extractLsb'_toNat, BitVec.toNat_and, BitVec.toNat_ushiftRight, h, Nat.and_two_pow_sub_one_eq_mod]

/-- The year is the top field, so the source masks nothing off it. -/
theorem dateYear_eq (raw : Half) : dateYear raw = 2000 + (raw >>> 9).toNat := by
  have hraw := raw.isLt
  rw [dateYear, BitVec.extractLsb'_toNat, BitVec.toNat_ushiftRight, Nat.shiftRight_eq_div_pow]
  omega

/-- Settles O59: the month and the day are a shift and a mask, and the example is evaluated. -/
theorem dateFieldsAreTheSourceExtraction : Obligations.DateFieldsAreTheSourceExtraction := by
  refine ⟨fun raw => ⟨dateYear_eq raw, ?_, ?_⟩, by decide, by decide, by decide⟩
  · exact extractLsb'_toNat_eq_shift_mask raw 5 rfl
  · rw [dateDay, extractLsb'_toNat_eq_shift_mask raw 0 (mask := 0x1F) rfl, BitVec.ushiftRight_zero]

end Sys2Proof.Machine
end

section
/-! PROOFS. The checksum function (spec/43_checksum.md): the accumulator as the sum of the covered bytes, and what follows for the
negation, for flipped bits and for the order of the bytes. -/

namespace Sys2Proof.Machine

/-! ### The sum of the covered bytes (R230, R233) -/

theorem zext16_eq_ofNat (b : Byte) : zext16 b = BitVec.ofNat 16 b.toNat :=
  (BitVec.ofNat_toNat 16 b).symm

/-- The accumulation loop of R231 adds the exact byte sum, modulo 65536. -/
theorem foldl_add_zext16 (p : List Byte) (acc : Half) :
    p.foldl (fun acc b => acc + zext16 b) acc = acc + BitVec.ofNat 16 (p.map BitVec.toNat).sum := by
  induction p generalizing acc with
  | nil => simp
  | cons b p ih =>
    rw [List.foldl_cons, ih, List.map_cons, List.sum_cons, BitVec.ofNat_add, zext16_eq_ofNat, add_assoc]

/-- The accumulator sees the covered bytes only through their sum, in which status and length are like any payload byte. -/
theorem checksumSum_eq_ofNat (st n : Byte) (p : List Byte) :
    checksumSum st n p = BitVec.ofNat 16 ((st :: n :: p).map BitVec.toNat).sum := by
  rw [checksumSum, foldl_add_zext16]
  simp only [List.map_cons, List.sum_cons, BitVec.ofNat_add, zext16_eq_ofNat, add_assoc]

theorem checksumSum_toNat (st n : Byte) (p : List Byte) :
    (checksumSum st n p).toNat = (st.toNat + n.toNat + (p.map BitVec.toNat).sum) % 65536 := by
  rw [checksumSum_eq_ofNat, BitVec.toNat_ofNat, List.map_cons, List.map_cons, List.sum_cons, List.sum_cons, add_assoc]

theorem checksum_toNat (st n : Byte) (p : List Byte) :
    (checksum st n p).toNat = (65536 - (checksumSum st n p).toNat) % 65536 := by
  rw [checksum_eq_neg, BitVec.toNat_neg]

/-- Settles O19: the negation of the accumulator, which is the byte sum modulo 65536. -/
theorem checksumNegatesTheByteSum : Obligations.ChecksumNegatesTheByteSum := by
  intro st n p
  rw [checksum_toNat, checksumSum_toNat]

theorem sum_map_toNat_le (p : List Byte) : (p.map BitVec.toNat).sum ≤ p.length * 255 := by
  have hbyte : ∀ x ∈ p.map BitVec.toNat, x ≤ 255 := List.forall_mem_map.2 fun b _ => Nat.le_of_lt_succ b.isLt
  simpa only [List.length_map, smul_eq_mul] using List.sum_le_card_nsmul _ 255 hbyte

/-- Settles O21: 257 bytes of at most 255 sum to at most 65535. -/
theorem checksumSumNeverWrapsInAFrame : Obligations.ChecksumSumNeverWrapsInAFrame := by
  intro st n p hlen
  have hst := st.isLt
  have hn := n.isLt
  have hsum := sum_map_toNat_le p
  rw [checksumSum_toNat, Nat.mod_eq_of_lt (by omega)]

/-! ### The negation (R232) -/

/-- The `+ 1` carries out of bit 15 for a sum of 0 only. -/
theorem checksum_toNat_eq_ite (st n : Byte) (p : List Byte) :
    (checksum st n p).toNat = if checksumSum st n p = 0 then 0 else 65536 - (checksumSum st n p).toNat := by
  rw [checksum_toNat]
  split_ifs with hzero
  · rw [hzero]; rfl
  · have hpos : (checksumSum st n p).toNat ≠ 0 := fun h => hzero (BitVec.eq_of_toNat_eq h)
    exact Nat.mod_eq_of_lt (by omega)

/-- Settles O20: complement plus one is negation in the 16-bit ring, where a sum and its negation cancel. -/
theorem checksumCancelsTheSum : Obligations.ChecksumCancelsTheSum := by
  refine ⟨fun sum => ?_, fun st n p => ⟨?_, ?_, checksum_toNat_eq_ite st n p⟩⟩
  · exact (BitVec.neg_eq_not_add sum).symm.trans (zero_sub sum).symm
  · exact (checksum_eq_neg st n p).trans (zero_sub _).symm
  · rw [checksum_eq_neg, add_neg_cancel]

/-! ### A flipped bit (R234) -/

/-- The status byte decides the checksum, the other covered bytes fixed. -/
theorem status_eq_of_checksum_eq {st st' n : Byte} {p : List Byte} (h : checksum st n p = checksum st' n p) :
    st = st' := by
  simp only [checksum_eq_neg, neg_inj, checksumSum] at h
  exact zext16_injective (add_right_cancel (foldl_add_injective p h))

/-- The length byte decides the checksum, the other covered bytes fixed. -/
theorem length_eq_of_checksum_eq {st n n' : Byte} {p : List Byte} (h : checksum st n p = checksum st n' p) :
    n = n' := by
  simp only [checksum_eq_neg, neg_inj, checksumSum] at h
  exact zext16_injective (add_left_cancel (foldl_add_injective p h))

/-- Settles O22: each covered byte decides the checksum, and a flip changes its byte. -/
theorem checksumDetectsEverySingleBitFlip : Obligations.ChecksumDetectsEverySingleBitFlip := by
  intro st n p q b k hk
  exact ⟨fun h => flip_bit_ne b hk (payload_byte_eq_of_checksum_eq h),
    fun h => flip_bit_ne st hk (status_eq_of_checksum_eq h),
    fun h => flip_bit_ne n hk (length_eq_of_checksum_eq h)⟩

/-! ### The order of the bytes (R235) -/

theorem checksum_eq_of_sum_mod_eq {st n st' n' : Byte} {p q : List Byte}
    (h : ((st :: n :: p).map BitVec.toNat).sum % 65536 = ((st' :: n' :: q).map BitVec.toNat).sum % 65536) :
    checksum st n p = checksum st' n' q := by
  have hsum : checksumSum st n p = checksumSum st' n' q := by
    apply BitVec.eq_of_toNat_eq
    rw [checksumSum_eq_ofNat, checksumSum_eq_ofNat, BitVec.toNat_ofNat, BitVec.toNat_ofNat]
    exact h
  rw [checksum, checksum, hsum]

/-- Settles O23: a permutation of the covered bytes has the same sum. -/
theorem checksumIgnoresTheOrderOfBytes : Obligations.ChecksumIgnoresTheOrderOfBytes := by
  intro st n st' n' p q
  refine ⟨fun hperm => checksum_eq_of_sum_mod_eq ?_, checksum_eq_of_sum_mod_eq⟩
  rw [(hperm.map BitVec.toNat).sum_eq]

end Sys2Proof.Machine
end

section
/-! PROOFS. PARSE (R245 to R248): it is VALIDATE and then DECODE by RTYPE, its stage says which of the two answered, and it
gives back the fields that a valid frame encodes. -/

namespace Sys2Proof.Machine

/-! ### The two parts of PARSE (R245, R246) -/

/-- VALIDATE of a valid capture latches its whole frame (R169). -/
theorem validate_frame_of_valid {s : State} (h : ValidCapture s) : (validate s).frame = latchedFrame s := by
  rw [validate_frame, show firstFailure validationSteps s = .ok from h]
  rfl

/-- VALIDATE accepts the valid captures and no other (R169, R170). -/
theorem validate_kind_eq_ok_iff (s : State) : (validate s).result.kind = .ok ↔ ValidCapture s := by
  rw [validate_kind, ValidCapture]

/-- A type that is not refused is one of the two of R110. -/
theorem classify_eq_basic_or_cells {b : Byte} (h : classify b ≠ .unknown) :
    classify b = .basic ∨ classify b = .cells := by
  cases hc : classify b with
  | none => exact absurd hc (classify_ne_none b)
  | basic => exact .inl rfl
  | cells => exact .inr rfl
  | unknown => exact absurd hc h

/-- RTYPE after an OK validation (R169). -/
theorem validate_rtype_of_valid {s : State} (h : ValidCapture s) :
    (validate s).frame.rtype = .basic ∨ (validate s).frame.rtype = .cells := by
  obtain ⟨-, -, -, -, -, htype, -⟩ := h.passes
  rw [validate_frame_of_valid h]
  exact classify_eq_basic_or_cells htype

/-- PARSE of a valid capture is the DECODE that RTYPE names (R245). -/
theorem parse_of_operand {s : State} {ty : ResponseType} (h : ValidCapture s)
    (hop : (validate s).frame.rtype.operand = some ty) : parse s = decodeRecord ty (validate s) := by
  simp only [parse, if_pos ((validate_kind_eq_ok_iff s).2 h), decodeAsClassified, hop]

/-- Settles O52: PARSE by the outcome of its VALIDATE, and then by RTYPE. -/
theorem parseIsValidateThenDecode : Obligations.ParseIsValidateThenDecode := by
  intro s
  have hvalid := (validate_kind_eq_ok_iff s).1
  refine ⟨validate s, rfl, fun hok hr => ?_, fun hok hr => ?_, fun hok => validate_rtype_of_valid (hvalid hok),
    fun hne => ?_⟩
  · exact congrArg Host.Outcome.next (parse_of_operand (ty := .basic) (hvalid hok) (by rw [hr]; rfl))
  · exact congrArg Host.Outcome.next (parse_of_operand (ty := .cells) (hvalid hok) (by rw [hr]; rfl))
  · exact congrArg Host.Outcome.next (parse_of_validate_ne_ok hne)

/-- What PARSE does with a valid capture: a DECODE of one of the two record types (R246). -/
theorem parse_of_valid {s : State} (h : ValidCapture s) :
    ∃ ty, ty ≠ .unknown ∧ parse s = decodeRecord ty (validate s) := by
  obtain hr | hr := validate_rtype_of_valid h
  · exact ⟨.basic, nofun, parse_of_operand h (by rw [hr]; rfl)⟩
  · exact ⟨.cells, nofun, parse_of_operand h (by rw [hr]; rfl)⟩

/-! ### Which part answered (R247) -/

@[simp] theorem decodeRecord_frame (ty : ResponseType) (s : State) : (decodeRecord ty s).frame = s.frame := by
  obtain ⟨q, r, h⟩ := exists_decodeRecord_eq ty s
  rw [h]

/-- DECODE of a record type from a validated frame passes the two checks of R191 and R192. -/
theorem decodeRecord_result_of_valid {ty : ResponseType} {s : State} (hty : ty ≠ .unknown) (hv : s.frame.valid = true) :
    (decodeRecord ty s).result.stage = .decode ∧
    (decodeRecord ty s).result.kind ≠ .unsupportedType ∧ (decodeRecord ty s).result.kind ≠ .notValidated := by
  cases ty with
  | basic =>
    rw [decodeRecord_basic_eq, if_neg (by simp [hv])]
    split_ifs <;> exact ⟨rfl, nofun, nofun⟩
  | cells =>
    rw [decodeRecord_cells_eq, if_neg (by simp [hv])]
    split_ifs <;> exact ⟨rfl, nofun, nofun⟩
  | unknown => exact absurd rfl hty

/-- Only an OK validation sets FRAME_VALID (R171). -/
theorem frameAfter_valid_of_ne_ok (s : State) {k : ResultKind} (h : k ≠ .ok) : (frameAfter s k).valid = false := by
  cases k with
  | ok => exact absurd rfl h
  | _ => rfl

/-- VALIDATE records no kind of another stage (R260). -/
theorem validate_kindAtStage (s : State) : kindAtStage (validate s).result.kind .validate = true := by
  obtain ⟨-, hresult⟩ := validate_frameInv_resultInv s
  exact validate_stage s ▸ hresult.stage

/-- Settles O53: a rejected frame leaves what VALIDATE left; a valid one is decoded with FRAME_VALID 1 and a legal operand. -/
theorem parseStageTellsTheComponent : Obligations.ParseStageTellsTheComponent := by
  intro s t ht
  cases ht
  by_cases h : ValidCapture s
  · obtain ⟨ty, hty, hparse⟩ := parse_of_valid h
    have hv : (validate s).frame.valid = true := by rw [validate_frame_of_valid h]; rfl
    obtain ⟨hstage, hsupported, hvalidated⟩ := decodeRecord_result_of_valid hty hv
    rw [hparse]
    exact ⟨hsupported, hvalidated, fun hne => absurd h hne, fun _ => ⟨hstage, by rw [decodeRecord_frame, hv]⟩⟩
  · have hstage := validate_kindAtStage s
    rw [parse_of_validate_ne_ok fun hok => h ((validate_kind_eq_ok_iff s).1 hok)]
    refine ⟨fun hk => ?_, fun hk => ?_, fun _ => ⟨validate_stage s, validate_kind s, ?_⟩, fun hok => absurd hok h⟩
    · rw [hk] at hstage; cases hstage
    · rw [hk] at hstage; cases hstage
    · rw [validate_frame]; exact frameAfter_valid_of_ne_ok s h

/-! ### Bytes in a row in the capture (R31, R81 to R83) -/

/-- These bytes stand in the capture, the first of them at this index. -/
def BytesAt (s : State) (i : Nat) (bs : List Byte) : Prop := memRead s i bs.length = bs

theorem bytesAt_cons {s : State} {i : Nat} {b : Byte} {bs : List Byte} :
    BytesAt s i (b :: bs) ↔ capByte s i = b ∧ BytesAt s (i + 1) bs := by
  simp only [BytesAt, List.length_cons, memRead, List.cons.injEq]

theorem bytesAt_append {s : State} {i : Nat} {p q : List Byte} :
    BytesAt s i (p ++ q) ↔ BytesAt s i p ∧ BytesAt s (i + p.length) q := by
  simp only [BytesAt, List.length_append, memRead_add]
  refine ⟨fun h => List.append_inj h (memRead_length ..), ?_⟩
  rintro ⟨hp, hq⟩
  rw [hp, hq]

theorem BytesAt.getElem {s : State} {i j : Nat} {bs : List Byte} (h : BytesAt s i bs) (hj : j < bs.length) :
    capByte s (i + j) = bs[j] := by
  have hread := memRead_getElem? s i bs.length j
  rw [h, if_pos hj, List.getElem?_eq_getElem hj] at hread
  exact (Option.some.inj hread).symm

/-- A u16 on the wire is assembled again (R81, R82). -/
theorem BytesAt.wire16_eq {s : State} {i : Nat} {v : Half} (h : BytesAt s i (wire16 v)) : be16 s i = v := by
  simp only [wire16, bytesAt_cons] at h
  obtain ⟨hhigh, hlow, -⟩ := h
  rw [be16_eq, hhigh, hlow, wire16_join]

/-- A u32 on the wire is assembled again (R81, R83). -/
theorem BytesAt.wire32_eq {s : State} {i : Nat} {v : Word} (h : BytesAt s i (wire32 v)) : be32 s i = v := by
  simp only [wire32, bytesAt_cons] at h
  obtain ⟨h0, h1, h2, h3, -⟩ := h
  rw [be32, h0, h1, h2, h3, wire32_join]

theorem BytesAt.congr {s t : State} {i : Nat} {bs : List Byte} (h : BytesAt s i bs) (hc : t.capture = s.capture)
    (hh : t.host = s.host) : BytesAt t i bs :=
  (memRead_of_capture hc hh i _).trans h

/-- A held frame stands in the capture from index 0. -/
theorem HoldsFrame.bytesAt {s : State} {bs : List Byte} (h : HoldsFrame s bs) : BytesAt s 0 bs := by
  obtain ⟨-, hbytes, -⟩ := h
  refine List.ext_getElem (memRead_length ..) fun j _ hj => ?_
  have hread := memRead_getElem? s 0 bs.length j
  rw [if_pos hj, Nat.zero_add, hbytes j _ (List.getElem?_eq_getElem hj)] at hread
  exact (List.getElem?_eq_some_iff.1 hread).2

/-! ### A capture that holds a response frame passes VALIDATE (R106, R160 to R169) -/

theorem responseFrame_length (ty st : Byte) (p : List Byte) : (responseFrame ty st p).length = p.length + 7 := by
  simp [responseFrame, wire16]

section frame

variable {s : State} {ty st : Byte} {p : List Byte} (h : HoldsFrame s (responseFrame ty st p))

include h

/-- Where the parts of a response frame stand: header, payload, checksum (R106). -/
theorem HoldsFrame.parts : (capByte s 0 = 0xDD ∧ capByte s 1 = ty ∧ capByte s 2 = st ∧
    capByte s 3 = BitVec.ofNat 8 p.length) ∧ BytesAt s 4 p ∧
    be16 s (4 + p.length) = checksum st (BitVec.ofNat 8 p.length) p := by
  have hframe := h.bytesAt
  simp only [responseFrame, bytesAt_append, bytesAt_cons, List.length_append, List.length_cons, List.length_nil,
    Nat.zero_add] at hframe
  obtain ⟨⟨⟨⟨hstart, htype, hstatus, hn, -⟩, hpay⟩, hsum⟩, -⟩ := hframe
  exact ⟨⟨hstart, htype, hstatus, hn⟩, hpay, hsum.wire16_eq⟩

/-- The capture ends with the end marker (R106, R33). -/
theorem HoldsFrame.len_last : s.capture.len.toNat = 7 + p.length ∧ s.capture.last = 0x77 := by
  obtain ⟨hlen, -, hlast⟩ := h
  rw [responseFrame_length, Nat.add_comm] at hlen
  rw [responseFrame, List.getLastD_concat] at hlast
  exact ⟨hlen, hlast⟩

/-- The length byte holds the length of any payload that the protocol allows (R107). -/
theorem HoldsFrame.length_byte_toNat (hp : p.length ≤ 255) : (capByte s 3).toNat = p.length := by
  obtain ⟨⟨-, -, -, hn⟩, -⟩ := h.parts
  rw [hn, BitVec.toNat_ofNat]
  omega

/-- Step 8 finds the frame's checksum in its checksum field and computes it from the covered bytes (R168). -/
theorem HoldsFrame.checksums (hp : p.length ≤ 255) :
    transmittedChecksum s = checksum st (BitVec.ofNat 8 p.length) p ∧
    computedChecksum s = checksum st (BitVec.ofNat 8 p.length) p := by
  obtain ⟨⟨-, -, hst, hn⟩, hpay, hsum⟩ := h.parts
  have hmem : memRead s 4 p.length = p := hpay
  constructor
  · rw [transmittedChecksum, h.length_byte_toNat hp, hsum]
  · rw [computedChecksum, h.length_byte_toNat hp, hmem, hst, hn]

/-- The payload and the checksum field stand in the capture that VALIDATE leaves (R173). -/
theorem HoldsFrame.payload_after_validate : BytesAt (validate s) 4 p ∧
    be16 (validate s) (4 + p.length) = checksum st (BitVec.ofNat 8 p.length) p := by
  obtain ⟨-, hpay, hsum⟩ := h.parts
  have hbyte := capByte_of_capture_eq (validate_capture s) (congrArg HostSide.resets (validate_host s))
  exact ⟨hpay.congr (validate_capture s) (validate_host s), (be16_congr (hbyte _) (hbyte _)).trans hsum⟩

end frame

section known

variable {s : State} {ty : Byte} {p : List Byte} (h : HoldsFrame s (responseFrame ty 0x00 p)) (hp : p.length ≤ 255)
  (hty : classify ty ≠ .unknown)

include h hp hty

/-- A response frame of a known type with status 0 passes every step (R169). -/
theorem HoldsFrame.validCapture : ValidCapture s := by
  obtain ⟨⟨hstart, htype, hstatus, -⟩, -⟩ := h.parts
  obtain ⟨hlen, hlast⟩ := h.len_last
  obtain ⟨hrx, hcalc⟩ := h.checksums hp
  have hn := h.length_byte_toNat hp
  rw [ValidCapture, firstFailure_eq, frameLength_eq, htype, if_neg (by omega), if_neg (not_not.2 hstart),
    if_neg (not_not.2 hlast), if_neg (by omega), if_neg (not_not.2 hstatus), if_neg hty,
    if_neg (not_not.2 (hrx.trans hcalc.symm))]

/-- VALIDATE of such a frame latches its type, its length and its checksum (R171, last row). -/
theorem HoldsFrame.latched : (validate s).frame.valid = true ∧ (validate s).frame.rtype = classify ty ∧
    (validate s).frame.payLen.toNat = p.length ∧
    (validate s).frame.csumCalc = checksum 0x00 (BitVec.ofNat 8 p.length) p := by
  obtain ⟨⟨-, htype, -, -⟩, -⟩ := h.parts
  obtain ⟨-, hcalc⟩ := h.checksums hp
  rw [validate_frame_of_valid (h.validCapture hp hty)]
  exact ⟨rfl, congrArg classify htype, h.length_byte_toNat hp, hcalc⟩

end known

/-! ### The two record layouts (R118, R119) -/

theorem wire16_length (v : Half) : (wire16 v).length = 2 := rfl

theorem wire32_length (v : Word) : (wire32 v).length = 4 := rfl

theorem basicPayload_length (r : BasicInfo) : (basicPayload r).length = 38 := by
  simp only [basicPayload, List.length_append, wire16_length, wire32_length, List.length_cons, List.length_nil,
    Vector.length_toList]

/-- The table of R118: each field at its offset in the frame. -/
theorem bytesAt_basicPayload {s : State} {r : BasicInfo} (h : BytesAt s 4 (basicPayload r)) :
    (be16 s 4 = r.totalV ∧ be16 s 6 = r.current ∧ be16 s 8 = r.remainCap ∧ be16 s 10 = r.nominalCap ∧
      be16 s 12 = r.cycles ∧ be16 s 14 = r.date) ∧
    (be32 s 16 = r.balance ∧ be16 s 20 = r.protect) ∧
    (capByte s 22 = r.swVer ∧ capByte s 23 = r.soc ∧ capByte s 24 = r.fet ∧ capByte s 25 = r.cells ∧
      capByte s 26 = r.ntcCount) ∧
    (be16 s 27 = r.temp[0] ∧ be16 s 29 = r.temp[1] ∧ be16 s 31 = r.temp[2]) ∧ BytesAt s 33 r.trailer.toList := by
  simp only [basicPayload, bytesAt_append, bytesAt_cons, List.length_append, wire16_length, wire32_length,
    List.length_cons, List.length_nil] at h
  obtain ⟨⟨⟨⟨⟨⟨⟨⟨⟨⟨⟨⟨hv, hc⟩, hrc⟩, hnc⟩, hcy⟩, hd⟩, hbal⟩, hprot⟩, hsw, hsoc, hfet, hcells, hntc, -⟩, ht0⟩, ht1⟩, ht2⟩,
    htrailer⟩ := h
  exact ⟨⟨hv.wire16_eq, hc.wire16_eq, hrc.wire16_eq, hnc.wire16_eq, hcy.wire16_eq, hd.wire16_eq⟩,
    ⟨hbal.wire32_eq, hprot.wire16_eq⟩, ⟨hsw, hsoc, hfet, hcells, hntc⟩,
    ⟨ht0.wire16_eq, ht1.wire16_eq, ht2.wire16_eq⟩, htrailer⟩

theorem cellPayload_length (vs : List Half) : (cellPayload vs).length = 2 * vs.length := by
  induction vs with
  | nil => rfl
  | cons v vs ih =>
    rw [cellPayload, List.length_append, wire16_length, ih, List.length_cons]
    omega

/-- The table of R119: cell k at bytes 2k and 2k + 1 of the payload. -/
theorem bytesAt_cellPayload {s : State} {i k : Nat} {vs : List Half} {v : Half} (h : BytesAt s i (cellPayload vs))
    (hk : vs[k]? = some v) : be16 s (i + 2 * k) = v := by
  induction vs generalizing i k with
  | nil => cases hk
  | cons w vs ih =>
    rw [cellPayload, bytesAt_append, wire16_length] at h
    obtain ⟨hw, hrest⟩ := h
    cases k with
    | zero => cases hk; exact hw.wire16_eq
    | succ k => rw [← ih hrest hk, Nat.mul_succ, Nat.add_comm (2 * k), Nat.add_assoc]

/-! ### The round trip (R248) -/

/-- PARSE of a BasicInfo frame is DECODE BASIC of the frame that VALIDATE leaves, and every check of it passes (R248). -/
theorem HoldsFrame.parse_basic {s : State} {r : BasicInfo} (h : HoldsFrame s (responseFrame 0x03 0x00 (basicPayload r))) :
    parse s = { validate s with
      record := ⟨.basic, basicRecord (validate s) 38, .zero⟩, result := ⟨.ok, .decode, 0, 0⟩ } := by
  have hlen := basicPayload_length r
  obtain ⟨hv, hrtype, hpay, hcalc⟩ := h.latched (by omega) (by decide)
  obtain ⟨-, hsum⟩ := h.payload_after_validate
  rw [hlen] at hpay hsum hcalc
  rw [parse_of_operand (ty := .basic) (h.validCapture (by omega) (by decide)) (by rw [hrtype]; rfl),
    decodeRecord_basic_eq, if_neg (by simp [hv]), if_neg (not_not.2 hpay), hpay,
    if_neg (not_not.2 (hsum.trans hcalc.symm))]

/-- PARSE of a frame of at most 6 cells is DECODE CELLS of the frame that VALIDATE leaves, and every check of it passes
(R248). -/
theorem HoldsFrame.parse_cells {s : State} {vs : List Half} (h : HoldsFrame s (responseFrame 0x04 0x00 (cellPayload vs)))
    (hvs : vs.length ≤ 6) :
    parse s = { validate s with
      record := ⟨.cells, .zero, cellRecord (validate s) (2 * vs.length)⟩, result := ⟨.ok, .decode, 0, 0⟩ } := by
  have hlen := cellPayload_length vs
  obtain ⟨hv, hrtype, hpay, -⟩ := h.latched (by omega) (by decide)
  rw [hlen] at hpay
  rw [parse_of_operand (ty := .cells) (h.validCapture (by omega) (by decide)) (by rw [hrtype]; rfl),
    decodeRecord_cells_eq, if_neg (by simp [hv]), hpay, if_neg (by omega)]

/-- A temperature slot that ntc_count counts is the assembled word, in either byte order of the host (R201). -/
theorem tempSlot_of_counted {s : State} {i : Fin 3} (hi : i.val < (capByte s 26).toNat) :
    tempSlot s i = be16 s (27 + 2 * i) :=
  if_pos (by rw [tempCountOf_toNat]; omega)

/-- The two arrays of the record are the payload's: the counted temperature slots, and the trailer (R201, R205). -/
theorem basicRecord_temp_trailer {s : State} {r : BasicInfo} (h : BytesAt s 4 (basicPayload r)) :
    (∀ i : Fin 3, i.val < r.ntcCount.toNat → (basicRecord s 38).temp[i] = r.temp[i]) ∧
    (basicRecord s 38).trailer = r.trailer := by
  obtain ⟨-, -, ⟨-, -, -, -, hntc⟩, ⟨ht0, ht1, ht2⟩, htrailer⟩ := bytesAt_basicPayload h
  refine ⟨fun i hi => ?_, Vector.ext fun j hj => ?_⟩
  · rw [← hntc] at hi
    rw [basicRecord_temp, tempSlot_of_counted hi]
    match i with
    | 0 => exact ht0
    | 1 => exact ht1
    | 2 => exact ht2
  · have hbyte := htrailer.getElem (j := j) (by simpa using hj)
    rw [Vector.getElem_toList] at hbyte
    exact (basicRecord_trailer s 38 ⟨j, hj⟩).trans hbyte

/-- Settles O54: PARSE loads its record from the frame, where each field stands at its offset in wire order. -/
theorem parseRoundTripsEveryValidFrame : Obligations.ParseRoundTripsEveryValidFrame := by
  refine ⟨fun s r h => ?_, fun s vs hvs h => ?_⟩
  · have hlen := basicPayload_length r
    obtain ⟨hv, hrtype, -⟩ := h.latched (by omega) (by decide)
    obtain ⟨hpay, hsum⟩ := h.payload_after_validate
    rw [hlen] at hsum
    obtain ⟨⟨htotalV, hcurrent, hremain, hnominal, hcycles, hdate⟩, ⟨hbalance, hprotect⟩,
      ⟨hswVer, hsoc, hfet, hcells, hntc⟩, -⟩ := bytesAt_basicPayload hpay
    obtain ⟨htemp, htrailer⟩ := basicRecord_temp_trailer hpay
    exact ⟨_, congrArg Host.Outcome.next h.parse_basic, rfl, hv, hrtype, validate_capture s, validate_host s, rfl, htotalV,
      hcurrent, hremain, hnominal, hcycles, hdate, hbalance, hprotect, hswVer, hsoc, hfet, hcells, hntc, htemp, htrailer,
      hsum⟩
  · have hlen := cellPayload_length vs
    obtain ⟨hv, hrtype, -⟩ := h.latched (by omega) (by decide)
    obtain ⟨hpay, hsum⟩ := h.payload_after_validate
    rw [hlen] at hsum
    have hcount := cellRecord_count_toNat (validate s) (by omega : 2 * vs.length ≤ 12)
    refine ⟨_, congrArg Host.Outcome.next (h.parse_cells hvs), rfl, hv, hrtype, validate_capture s, validate_host s, rfl,
      hcount.trans (by omega), fun i v hiv => ?_, hsum⟩
    obtain ⟨hi, -⟩ := List.getElem?_eq_some_iff.1 hiv
    calc (cellRecord (validate s) (2 * vs.length)).cell[i] = cellSlot (validate s) (2 * vs.length) i :=
          cellRecord_cell _ _ i
      _ = be16 (validate s) (4 + 2 * i) := if_pos (by omega)
      _ = v := bytesAt_cellPayload hpay hiv

end Sys2Proof.Machine
end

section
/-! PROOFS. Results and exceptions (R260 to R267, R274): which commands write the result registers, and that no step ends the
run. -/

namespace Sys2Proof.Machine

/-! ### Who writes the result registers (R261) -/

/-- PARSE reads the capture alone, as its VALIDATE does (R245). -/
theorem parse_congr {s t : State} (hc : t.capture = s.capture) (hh : t.host = s.host) : parse t = parse s := by
  simp only [parse, validate_congr hc hh]

/-- A word that is no command's raises IllegalCommand (R103). -/
theorem runWord_of_not_decoded {w : Half} (h : ∀ i, decode w ≠ .ok i) (s : State) :
    runWord w s = .next (raiseIllegal w s) := by
  obtain ⟨i, hdecode, -⟩ | hraise := runWord_cases w s
  · exact absurd hdecode (h i)
  · exact hraise

/-- DECODE reads no result register. -/
theorem decodeRecord_with_result (ty : ResponseType) (s : State) (r : ResultRegs) :
    decodeRecord ty { s with result := r } = decodeRecord ty s :=
  decodeRecord_with_record_result ty s s.record r

/-- Settles O55: VALIDATE and PARSE read the capture alone, and DECODE reads the capture and the frame group. -/
theorem whichCommandsWriteTheResult : Obligations.WhichCommandsWriteTheResult := by
  refine ⟨fun s t b h => ?_, fun s t h => ?_, fun s r i hi => ?_, fun s t w hw h => ?_⟩
  · obtain hnop | hpush := h
    · cases hnop
      rfl
    · cases hpush
      exact captureByte_result b s
  · cases h
    rfl
  · simp only [List.mem_cons, List.not_mem_nil, or_false] at hi
    obtain rfl | rfl | rfl | rfl | rfl := hi
    · exact congrArg Host.Outcome.next (validate_congr rfl rfl)
    · exact congrArg Host.Outcome.next (decodeRecord_with_result .basic s r)
    · exact congrArg Host.Outcome.next (decodeRecord_with_result .cells s r)
    · exact congrArg Host.Outcome.next (decodeRecord_with_result .unknown s r)
    · exact congrArg Host.Outcome.next (parse_congr rfl rfl)
  · rw [runWord_of_not_decoded hw] at h
    cases h
    rfl

/-! ### Every step answers a next state (R264, R266, R274) -/

/-- Settles O8: the step finds no action on the host's list. -/
theorem idleStepKeepsTheState : Obligations.IdleStepKeepsTheState :=
  fun _ => step_of_pending_nil

/-- A word on the command port, legal or not, answers a next state (R103, R266). -/
theorem exists_runWord_eq_next (w : Half) (s : State) : ∃ t, runWord w s = .next t := by
  obtain ⟨i, -, hrun⟩ | hraise := runWord_cases w s
  · rw [hrun]
    exact exists_exec_eq_next i s
  · exact ⟨_, hraise⟩

/-- Every action of the host answers a next state (R51, R52, R266, R290). -/
theorem exists_runAction_eq_next (a : HostAction) (s : State) : ∃ t, runAction a s = .next t := by
  cases a with
  | write w => exact exists_runWord_eq_next w s
  | read a => exact ⟨hostRead a s, rfl⟩
  | reset => exact ⟨hardReset s, rfl⟩

/-- Settles O11, by the host's next action. -/
theorem stepAlwaysAnswersANextState : Obligations.StepAlwaysAnswersANextState := by
  intro s
  cases hpending : s.host.pending with
  | nil => exact ⟨s, step_of_pending_nil hpending⟩
  | cons a rest =>
    rw [step_of_pending_cons hpending]
    exact exists_runAction_eq_next a _

end Sys2Proof.Machine
end

section
/-! PROOFS. Reset (R290, R293): the reset between two commands, and what the commands answer straight after it. -/

namespace Sys2Proof.Machine

/-! ### The reset between two commands (R290) -/

/-- Settles O10: the step is `hardReset`, which looks at nothing but the host's side. -/
theorem hardwareResetReachesTheResetState : Obligations.HardwareResetReachesTheResetState := by
  intro s rest hpending
  calc step s = .next (hardReset (setPending s rest)) := step_of_pending_cons hpending
    _ = .next { State.reset with host := { s.host with pending := rest, resets := s.host.resets + 1 } } := rfl

/-! ### The commands straight after it (R293) -/

/-- No byte is captured yet, and the two groups that VALIDATE clears are clear (R161). -/
theorem validate_reset : validate State.reset = State.reset.raise .validate .incompleteFrame 0 7 := by
  have hshort : State.reset.capture.len.toNat < 7 := by decide
  rw [validate_eq, if_pos hshort]
  rfl

/-- PARSE ends with its VALIDATE, which refuses the empty capture (R245). -/
theorem parse_reset : parse State.reset = State.reset.raise .validate .incompleteFrame 0 7 := by
  have hrefused : (validate State.reset).result.kind ≠ .ok := by
    rw [validate_reset]
    nofun
  rw [parse_of_validate_ne_ok hrefused, validate_reset]

/-- Settles O13: the capture is empty, FRAME_VALID is 0, and there is no record to clear. -/
theorem commandsStraightAfterReset : Obligations.CommandsStraightAfterReset := by
  obtain ⟨hbasic, hcells⟩ := exec_decode_of_not_valid (s := State.reset) rfl rfl
  exact ⟨congrArg Host.Outcome.next validate_reset, congrArg Host.Outcome.next parse_reset, hbasic, hcells,
    decodeUnknownIsUnsupported State.reset⟩

end Sys2Proof.Machine
end
